-- ==== Sys2Proof/Word.lean ====
section
/-!
DEFINITION. The plain types of the block: bytes, line levels and directions, the nine pin events, status values and
the configuration selectors (spec/00_scope.md R4 and section 6; spec/10_state.md R11, R12, R22).
-/

namespace Sys2Proof

/-- 8 bits, unsigned (00_scope.md section 6). -/
abbrev Byte := BitVec 8

/-- The level of a latch or of a wire (R11). -/
inductive Level where
  | low
  | high
deriving DecidableEq, Repr

/-- The direction of a line cell (R11): `output` drives the line to the latch level, `input` releases it. -/
inductive Dir where
  | input
  | output
deriving DecidableEq, Repr

/-- The nine pin events, one per pin primitive (00_scope.md section 6, R90). -/
inductive Event where
  /-- `D+`: the SDA latch is set high (R81). -/
  | sdaHigh
  /-- `D-`: the SDA latch is set low (R82). -/
  | sdaLow
  /-- `Do`: SDA becomes an output (R83). -/
  | sdaOut
  /-- `Di`: SDA becomes an input, released (R84). -/
  | sdaIn
  /-- `C+`: the SCL latch is set high (R85). -/
  | sclHigh
  /-- `C-`: the SCL latch is set low (R86). -/
  | sclLow
  /-- `Co`: SCL becomes an output (R87). -/
  | sclOut
  /-- `Ci`: SCL becomes an input, released (R88). -/
  | sclIn
  /-- `Delay(us)`; the event `w` of the notation when `us` is `x[DELAY]` (R89). -/
  | delay (us : Nat)
deriving DecidableEq, Repr

/-- The status of `setPixel`, exactly two values (R166). -/
inductive Status where
  | ok
  | outOfRange
deriving DecidableEq, Repr

/-- `ACK_SDA_MODE`: what the master's data line does in the ACK slot (R52). -/
inductive AckMode where
  | release
  | driveLow
  | holdLast
deriving DecidableEq, Repr, Inhabited

/-- `GRANULARITY` (R4). -/
inductive Granularity where
  | page
  | byte
deriving DecidableEq, Repr

/-- `FLUSH_MODE` (R4). -/
inductive FlushMode where
  | batched
  | immediate
deriving DecidableEq, Repr

/-- The two control bytes a frame can have (R58). -/
inductive Control where
  /-- `0x00`: the rest of the frame is commands. -/
  | command
  /-- `0x40`: the rest of the frame is display data. -/
  | data
deriving DecidableEq, Repr

end Sys2Proof
end

