-- ==== Sys2Proof/Config.lean ====
section
/-!
DEFINITION. What a driver instance fixes at construction (spec/00_scope.md R4) and the values the spec leaves open,
each an opaque constant of which no proof can know anything (log entries 4, 5, 6, 12, 17).
-/

namespace Sys2Proof

/-- The admitted pairs of `GRANULARITY` and `FLUSH_MODE`. Immediate mode "is admitted only together with
`GRANULARITY = byte`; the configuration (`page`, `immediate`) is refused" (R152, U8): it has no value here. -/
inductive Variant where
  | pageBatched
  | byteBatched
  | byteImmediate
deriving DecidableEq, Repr

/-- The two selectors of R4 as a configuration; `none` is the refusal of (`page`, `immediate`) (R152, U8). -/
def Variant.ofSelectors : Granularity → FlushMode → Option Variant
  | .page, .batched => some .pageBatched
  | .page, .immediate => none
  | .byte, .batched => some .byteBatched
  | .byte, .immediate => some .byteImmediate

/-- `GRANULARITY` of a configuration (R4). -/
def Variant.granularity : Variant → Granularity
  | .pageBatched => .page
  | .byteBatched => .byte
  | .byteImmediate => .byte

/-- `FLUSH_MODE` of a configuration (R4). -/
def Variant.flushMode : Variant → FlushMode
  | .pageBatched => .batched
  | .byteBatched => .batched
  | .byteImmediate => .immediate

/-- The construction arguments of one driver instance (R4, R10): `ACK_SDA_MODE`, the variant, and the open bytes of
`INIT_BODY` (R68). No operation changes them; every statement about a state holds for each of their values. -/
structure Config where
  ackMode        : AckMode
  variant        : Variant
  opcMux         : Byte
  opcOffset      : Byte
  opcClkDiv      : Byte
  seqCpEn        : List Byte
  seqRemap       : List Byte
  opcChgPump     : Byte
  opcAddrMode    : Byte
  modeHorizontal : Byte
  opcPrechg      : Byte
  opcVcomh       : Byte
  minBrightness  : Byte
deriving DecidableEq, Repr

/-- `HALF_BIT_DELAY_US`, open (R15, D9). -/
opaque Config.halfBitDelayUs : Nat

/-- `ACK_SDA_MODE` of the instance that `State.reset` constructs, open (R52, D5). -/
opaque Config.ackSdaMode : AckMode

/-- `OPC_MUX`, open (R68, D15). -/
opaque Config.muxOpcode : Byte

/-- `OPC_OFFSET`, open (R68, D15). -/
opaque Config.offsetOpcode : Byte

/-- `OPC_CLKDIV`, open (R68, D15). -/
opaque Config.clockDivideOpcode : Byte

/-- `SEQ_CPEN`, open (R68, D15). -/
opaque Config.chargePumpEnableSeq : List Byte

/-- `SEQ_REMAP`, open (R68, D15). -/
opaque Config.remapSeq : List Byte

/-- `OPC_CHGPUMP`, open (R68, D15). -/
opaque Config.chargePumpOpcode : Byte

/-- `OPC_ADDRMODE`, open (R68, D15). -/
opaque Config.addressingModeOpcode : Byte

/-- `MODE_HORIZONTAL`, open (R68, D15, C4). -/
opaque Config.horizontalMode : Byte

/-- `OPC_PRECHG`, open (R68, D15). -/
opaque Config.prechargeOpcode : Byte

/-- `OPC_VCOMH`, open (R68, D15). -/
opaque Config.vcomhOpcode : Byte

/-- `MIN_BRIGHTNESS`, open (R4, R68, D15). -/
opaque Config.minimumBrightness : Byte

/-- The instance that `State.reset` constructs: the open parameters free, the selectors at the spec's defaults
`page` and `batched` (R4). -/
def Config.constructed : Config where
  ackMode        := Config.ackSdaMode
  variant        := .pageBatched
  opcMux         := Config.muxOpcode
  opcOffset      := Config.offsetOpcode
  opcClkDiv      := Config.clockDivideOpcode
  seqCpEn        := Config.chargePumpEnableSeq
  seqRemap       := Config.remapSeq
  opcChgPump     := Config.chargePumpOpcode
  opcAddrMode    := Config.addressingModeOpcode
  modeHorizontal := Config.horizontalMode
  opcPrechg      := Config.prechargeOpcode
  opcVcomh       := Config.vcomhOpcode
  minBrightness  := Config.minimumBrightness

/-- The bit `pixel` gives where the spec gives none: outside the bitmap, where it "is undefined" (R135), and before the
first `initialize`, when `FB` is unspecified (R25, U11). Applied to the counter `State.draws`, so that each read is a
value of its own. -/
opaque Config.freeBit : Nat → Bool

/-- The panel's own address `A` (R180), which the spec gives no value. -/
opaque Config.panelAddress : BitVec 7

/-- What a byte of the panel's `GRAM` holds at power-up, unspecified (R180, U19); indexed as `128 * page + column`. -/
opaque Config.gramPowerUp : Nat → Byte

/-- `PANEL_WRAP`, open (R180, D26): the cursor (page, column) after the data byte at column 127 of a page. -/
opaque Config.panelWrap : BitVec 3 → BitVec 3 × BitVec 7

end Sys2Proof
end

