-- ==== Sys2Proof/Syntax.lean ====
section
/-!
DEFINITION. The instruction set: one constructor per row of spec/opcode_table.json, in the table's order. The first 36
rows are the wire formats of spec/30_encoding.md (what the block emits); the other 31 are the operations of
spec/40_pin_primitives.md to 44_flush.md, which have names and typed operands and no numeric code (D27). LAWS.json maps
each constructor to its row.
-/

namespace Sys2Proof

inductive Instr where
  -- cells (R51, R52, R54, R55)
  /-- BIT1 -/
  | bit1
  /-- BIT0 -/
  | bit0
  /-- ACK.release -/
  | ackRelease
  /-- ACK.drive_low -/
  | ackDriveLow
  /-- ACK.hold_last -/
  | ackHoldLast
  /-- START -/
  | startCell
  /-- STOP -/
  | stopCell
  -- byte and frame (R53, R56)
  /-- BYTE -/
  | byteCells (v : Byte)
  /-- FRAME -/
  | frame (addr : BitVec 7) (ctl : Control) (payload : List Byte)
  -- wire bytes and commands (R57 to R66)
  /-- ADDR_BYTE -/
  | addrByte (a : BitVec 7)
  /-- CTRL_CMD -/
  | ctrlCmd
  /-- CTRL_DATA -/
  | ctrlData
  /-- DISPLAY_OFF -/
  | displayOff
  /-- DISPLAY_ON -/
  | displayOn
  /-- SET_CONTRAST -/
  | cmdContrast (v : Byte)
  /-- SET_PAGE -/
  | setPage (p : BitVec 3)
  /-- SET_COL_LOW -/
  | setColLow (l : BitVec 4)
  /-- SET_COL_HIGH -/
  | setColHigh (h : BitVec 4)
  /-- POSITION_TRIPLET -/
  | positionTriplet (p : BitVec 3) (l h : BitVec 4)
  /-- DATA_BYTE -/
  | dataByte (d : Byte)
  -- the eleven items of the initialisation sequence (R68)
  /-- INIT_DISPLAY_OFF -/
  | initDisplayOff
  /-- INIT_MUX_RATIO -/
  | initMuxRatio
  /-- INIT_DISPLAY_OFFSET -/
  | initDisplayOffset
  /-- INIT_CLOCK_DIVIDE, its operand `refreshFrequency` -/
  | initClockDivide (f : Byte)
  /-- INIT_CHARGE_PUMP_ENABLE_SEQ -/
  | initChargePumpEnableSeq
  /-- INIT_SEG_COM_REMAP -/
  | initSegComRemap
  /-- INIT_CHARGE_PUMP -/
  | initChargePump
  /-- INIT_DISPLAY_ON -/
  | initDisplayOn
  /-- INIT_ADDRESSING_MODE -/
  | initAddressingMode
  /-- INIT_PRECHARGE, its operand `preChargePeriod` -/
  | initPrecharge (p : Byte)
  /-- INIT_VCOMH_DESELECT -/
  | initVcomhDeselect
  -- frame shapes (R74)
  /-- FRAME_COMMAND1 -/
  | frameCommand1 (c : Byte)
  /-- FRAME_COMMAND2 -/
  | frameCommand2 (c1 c2 : Byte)
  /-- FRAME_POSITION -/
  | framePosition (page : BitVec 3) (column : BitVec 7)
  /-- FRAME_DATA -/
  | frameData (ds : List Byte)
  /-- FRAME_INIT -/
  | frameInit (pc rf : Byte)
  -- pin primitives (R81 to R89)
  /-- SDA.setHigh -/
  | sdaSetHigh
  /-- SDA.setLow -/
  | sdaSetLow
  /-- SDA.setDirectionOutput -/
  | sdaSetDirectionOutput
  /-- SDA.setDirectionInput -/
  | sdaSetDirectionInput
  /-- SCL.setHigh -/
  | sclSetHigh
  /-- SCL.setLow -/
  | sclSetLow
  /-- SCL.setDirectionOutput -/
  | sclSetDirectionOutput
  /-- SCL.setDirectionInput -/
  | sclSetDirectionInput
  /-- precisionDelay -/
  | precisionDelay (us : Nat)
  -- bus transport (R95 to R100, R106)
  /-- clockBit -/
  | clockBit (b : Bool)
  /-- ackSlot -/
  | ackSlot
  /-- byteOut -/
  | byteOut (v : Byte)
  /-- begin -/
  | beginFrame (deviceAddress : BitVec 7)
  /-- writeBytes -/
  | writeBytes (buffer : List Byte) (length : Nat)
  /-- end -/
  | endFrame
  /-- transaction -/
  | transaction (bytes : List Byte)
  -- device command operations (R115 to R121)
  /-- sendCommand -/
  | sendCommand (c : Byte)
  /-- sendCommand2 -/
  | sendCommand2 (c1 c2 : Byte)
  /-- setPosition -/
  | setPosition (column page : Int)
  /-- writeDataBlock -/
  | writeDataBlock (buffer : List Byte) (length : Nat)
  /-- initialize -/
  | initializePanel (address preChargePeriod refreshFrequency : Nat)
  /-- setPower -/
  | setPower (on : Bool)
  /-- setContrast -/
  | setContrast (value : Byte)
  -- framebuffer and flush (R135 to R139, R150 to R152)
  /-- pixel -/
  | pixel (x y : Int)
  /-- setPixel -/
  | setPixel (x y : Int) (color : Bool)
  /-- setPixel.byte -/
  | setPixelByte (x y : Int) (color : Bool)
  /-- setPixel.immediate -/
  | setPixelImmediate (x y : Int)
  /-- fill -/
  | fill (value : Byte)
  /-- loadBlock -/
  | loadBlock (buffer : List Byte) (byteCount byteOffset : Int)
  /-- flush -/
  | flush
  /-- flush.byte -/
  | flushByte
deriving DecidableEq, Repr

end Sys2Proof
end

