-- ==== Sys2Proof/Machine/Operands.lean ====
section
/-!
DEFINITION. Operand assembly, all of it (spec/30_encoding.md R57 to R69), the items of the initialisation sequence
(R67, R68), the geometry (spec/00_scope.md R3) and the pixel mapping (spec/20_memory.md R31).
-/

namespace Sys2Proof.Machine

/-- `WRITE_BIT` (R57, D2). -/
def writeBit : Byte := 0x00#8

/-- The address byte: the 7-bit address shifted left one place, the write bit in bit 0 (R57, R69 (i)). -/
def addressByte (a : BitVec 7) : Byte := (a.setWidth 8 <<< 1) ||| writeBit

/-- The control byte (R58). -/
def controlByte : Control → Byte
  | .command => 0x00#8
  | .data => 0x40#8

/-- Display off (R59). -/
def displayOffByte : Byte := 0xAE#8

/-- Display on (R60). -/
def displayOnByte : Byte := 0xAF#8

/-- The power command of `setPower(on)` (R60, R120). -/
def powerByte (on : Bool) : Byte := if on then displayOnByte else displayOffByte

/-- The opcode of the contrast command (R61). -/
def contrastOpcode : Byte := 0x81#8

/-- The page command `0xB0 | page`; no mask is applied (R62, R69 (ii)). -/
def pageByte (page : Nat) : Byte := 0xB0#8 ||| BitVec.ofNat 8 page

/-- The low column command from its nibble (R63). -/
def lowNibbleByte (l : BitVec 4) : Byte := 0x00#8 ||| l.setWidth 8

/-- The high column command from its nibble (R64). -/
def highNibbleByte (h : BitVec 4) : Byte := 0x10#8 ||| h.setWidth 8

/-- The low column command `0x00 | (col & 0x0F)` (R63, R69 (iii)). -/
def colLowByte (column : Nat) : Byte := 0x00#8 ||| (BitVec.ofNat 8 column &&& 0x0F#8)

/-- The high column command `0x10 | ((col >> 4) & 0x0F)` (R64, R69 (iii)). -/
def colHighByte (column : Nat) : Byte := 0x10#8 ||| ((BitVec.ofNat 8 column >>> 4) &&& 0x0F#8)

/-- The position triplet: page, column low, column high (R65). -/
def positionBytes (column page : Nat) : List Byte :=
  [pageByte page, colLowByte column, colHighByte column]

/-- `0xB0 | page` as a pattern: `1011 0ppp` (R62). -/
def isPageByte (b : Byte) : Bool := b &&& 0xF8#8 == 0xB0#8

/-- `0000 llll` (R63). -/
def isColLowByte (b : Byte) : Bool := b &&& 0xF0#8 == 0x00#8

/-- `0001 hhhh` (R64). -/
def isColHighByte (b : Byte) : Bool := b &&& 0xF0#8 == 0x10#8

/-- Item 2, multiplex-ratio (R68). -/
def itemMuxRatio (cfg : Config) : List Byte := [cfg.opcMux, 0x3F#8]

/-- Item 3, display-offset (R68). -/
def itemDisplayOffset (cfg : Config) : List Byte := [cfg.opcOffset, 0x00#8]

/-- Item 4, display-clock-divide (R68). -/
def itemClockDivide (cfg : Config) (rf : Byte) : List Byte := [cfg.opcClkDiv, rf]

/-- Item 7, charge-pump (R68). -/
def itemChargePump (cfg : Config) : List Byte := [cfg.opcChgPump, 0x14#8]

/-- Item 9, horizontal-addressing-mode (R68). -/
def itemAddressingMode (cfg : Config) : List Byte := [cfg.opcAddrMode, cfg.modeHorizontal]

/-- Item 10, pre-charge-period (R68). -/
def itemPrecharge (cfg : Config) (pc : Byte) : List Byte := [cfg.opcPrechg, pc]

/-- Item 11, deselect-level (R68). -/
def itemVcomhDeselect (cfg : Config) : List Byte := [cfg.opcVcomh, cfg.minBrightness]

/-- `INIT_BODY(pc, rf)`: the eleven items in order (R67, R68). -/
def initBody (cfg : Config) (pc rf : Byte) : List Byte :=
  [displayOffByte] ++ itemMuxRatio cfg ++ itemDisplayOffset cfg ++ itemClockDivide cfg rf ++ cfg.seqCpEn
    ++ cfg.seqRemap ++ itemChargePump cfg ++ [displayOnByte] ++ itemAddressingMode cfg ++ itemPrecharge cfg pc
    ++ itemVcomhDeselect cfg

/-- Framebuffer size in bytes, `W * P` (R3). -/
def fbSize : Nat := 1024

/-- Bytes per page, `W` (R3). -/
def pageStride : Nat := 128

/-- `0 ≤ x < 128` and `0 ≤ y < 64` (R31, R136). -/
def inBitmap (x y : Int) : Bool := decide (0 ≤ x ∧ x < 128 ∧ 0 ≤ y ∧ y < 64)

/-- `page(y) = y div 8` (R31). -/
def pageOf (y : Nat) : Nat := y / 8

/-- `bit(y) = y mod 8` (R31, R32). -/
def bitOf (y : Nat) : Nat := y % 8

/-- `index(x, y) = 128 * page(y) + x` (R31, D19). -/
def indexOf (x y : Nat) : Nat := pageStride * pageOf y + x

/-- `bitmask(y) = 1 << bit(y)` (R31). -/
def maskOf (y : Nat) : Byte := 1#8 <<< bitOf y

/-- The byte with the pixel's bit set or cleared, the seven other bits kept (R136). -/
def paint (old : Byte) (y : Nat) (color : Bool) : Byte :=
  if color then old ||| maskOf y else old &&& ~~~maskOf y

/-- The pages 0 to 7, in increasing order (R3, R153). -/
def pages : List (Fin 8) := [0, 1, 2, 3, 4, 5, 6, 7]

end Sys2Proof.Machine
end

