-- ==== Sys2Proof/Machine/Waveform.lean ====
section
/-!
DEFINITION. The waveforms: cells, bytes and frames as lists of pin events (spec/30_encoding.md R50 to R56). `d` is
the half-bit delay `x[DELAY]`, so that `w` is `Event.delay d`.
-/

namespace Sys2Proof.Machine

/-- The data event of a bit: a 1 is the high level (R51, D1). -/
def dataEvent (b : Bool) : Event := if b then .sdaHigh else .sdaLow

/-- The clock pulse every bit and ACK cell has: `w C+ w C-` (R51, R52). -/
def clockPulse (d : Nat) : List Event := [.delay d, .sclHigh, .delay d, .sclLow]

/-- The bit cell (R51). -/
def bitCell (d : Nat) (b : Bool) : List Event := dataEvent b :: clockPulse d

/-- The ACK cell of each `ACK_SDA_MODE` (R52). -/
def ackCell (mode : AckMode) (d : Nat) : List Event :=
  match mode with
  | .release => .sdaIn :: (clockPulse d ++ [.sdaOut])
  | .driveLow => .sdaLow :: clockPulse d
  | .holdLast => clockPulse d

/-- START: `D+ C+ Do Co w D- w C-` (R54). -/
def startWave (d : Nat) : List Event :=
  [.sdaHigh, .sclHigh, .sdaOut, .sclOut, .delay d, .sdaLow, .delay d, .sclLow]

/-- STOP: `D- w C+ w D+ Di Ci` (R55). -/
def stopWave (d : Nat) : List Event :=
  [.sdaLow, .delay d, .sclHigh, .delay d, .sdaHigh, .sdaIn, .sclIn]

/-- The bits of a byte in wire order, most significant first (R33). -/
def bitsMsbFirst (v : Byte) : List Bool :=
  [v.getLsbD 7, v.getLsbD 6, v.getLsbD 5, v.getLsbD 4, v.getLsbD 3, v.getLsbD 2, v.getLsbD 1, v.getLsbD 0]

/-- A byte: eight bit cells and one ACK cell (R53). -/
def byteWave (mode : AckMode) (d : Nat) (v : Byte) : List Event :=
  (bitsMsbFirst v).flatMap (bitCell d) ++ ackCell mode d

/-- Bytes in index order (R34, R99). -/
def bytesWave (mode : AckMode) (d : Nat) (bs : List Byte) : List Event :=
  bs.flatMap (byteWave mode d)

/-- A frame: START, the address byte, the bytes after it, STOP (R56). -/
def frameWave (mode : AckMode) (d : Nat) (a : BitVec 7) (bs : List Byte) : List Event :=
  startWave d ++ byteWave mode d (addressByte a) ++ bytesWave mode d bs ++ stopWave d

end Sys2Proof.Machine
end

