-- ==== Sys2Proof/Decode.lean ====
section
/-!
DEFINITION. Reading the wire formats back, and writing them: the cells, bytes and frames from pin events
(spec/30_encoding.md R50 to R56), the bytes of a frame by their position in it (R57 to R71), the frame shapes (R74), and
the words of spec/opcode_table.json. A byte means what its POSITION makes it mean (R63, R71), so the readers are indexed
by `Slot`; each is total and rejects by name. The operations (the table's CALL rows) have no code of any kind (D27):
their slot is `call` and they encode to nothing. The encoder stands after the decoder.
-/

namespace Sys2Proof

open Sys2Proof.Machine

/-- The position a wire format stands in. -/
inductive Slot where
  /-- A bit cell (R51). -/
  | bitCell
  /-- An ACK cell (R52). -/
  | ackCell
  /-- START or STOP (R54, R55). -/
  | edgeCell
  /-- The nine cells of a byte (R53). -/
  | byteCells
  /-- A whole frame as events (R56). -/
  | frame
  /-- The first byte of a frame (R57). -/
  | address
  /-- The second byte of a frame (R58). -/
  | control
  /-- A command after control byte `0x00` (R59 to R64). -/
  | command
  /-- The three bytes of a position (R65). -/
  | position
  /-- A data byte after control byte `0x40` (R66). -/
  | data
  /-- Item `k` of the initialisation sequence, `k` from 1 to 11 (R68). -/
  | initItem (k : Nat)
  /-- The bytes of a whole frame (R74). -/
  | shape
  /-- An operation: no code (D27). -/
  | call
deriving DecidableEq, Repr

/-- Why a reader rejects. -/
inductive DecodeError where
  /-- Fewer events or bytes than the format has. -/
  | truncated
  /-- The events are no cell of this slot. -/
  | notThisCell
  /-- Bit 0 of an address byte is set: a read, which the block never emits (R57, R70). -/
  | readAddress
  /-- A control byte other than `0x00` and `0x40` (R58, R70). -/
  | badControl
  /-- No command of R59 to R64 begins with this byte. -/
  | unknownCommand
  /-- Not the bytes of this item of the initialisation sequence (R68). -/
  | notThisItem
  /-- No frame shape of R74. -/
  | notAShape
  /-- No row of the opcode table has this word. -/
  | unassignedWord
deriving DecidableEq, Repr

/-- The bits of a byte in wire order, most significant first, as a byte (R33, R53). -/
def byteOfBits (bits : List Bool) : Byte :=
  bits.foldl (fun acc b => (acc <<< 1) ||| (if b then 1#8 else 0#8)) 0#8

/-! ### Events -/

/-- A bit cell at the head of the events (R51). -/
def readBitCell : List Event → Except DecodeError (Bool × List Event)
  | .sdaHigh :: .delay _ :: .sclHigh :: .delay _ :: .sclLow :: rest => .ok (true, rest)
  | .sdaLow :: .delay _ :: .sclHigh :: .delay _ :: .sclLow :: rest => .ok (false, rest)
  | _ => .error .notThisCell

/-- An ACK cell at the head of the events, and the mode whose cell it is (R52). -/
def readAckCell : List Event → Except DecodeError (AckMode × List Event)
  | .sdaIn :: .delay _ :: .sclHigh :: .delay _ :: .sclLow :: .sdaOut :: rest => .ok (.release, rest)
  | .sdaLow :: .delay _ :: .sclHigh :: .delay _ :: .sclLow :: rest => .ok (.driveLow, rest)
  | .delay _ :: .sclHigh :: .delay _ :: .sclLow :: rest => .ok (.holdLast, rest)
  | _ => .error .notThisCell

/-- A START at the head of the events (R54). -/
def readStart : List Event → Except DecodeError (List Event)
  | .sdaHigh :: .sclHigh :: .sdaOut :: .sclOut :: .delay _ :: .sdaLow :: .delay _ :: .sclLow :: rest => .ok rest
  | _ => .error .notThisCell

/-- A STOP at the head of the events (R55). -/
def readStop : List Event → Except DecodeError (List Event)
  | .sdaLow :: .delay _ :: .sclHigh :: .delay _ :: .sdaHigh :: .sdaIn :: .sclIn :: rest => .ok rest
  | _ => .error .notThisCell

/-- `n` bit cells (R53). -/
def readBits : Nat → List Event → Except DecodeError (List Bool × List Event)
  | 0, es => .ok ([], es)
  | n + 1, es =>
    match readBitCell es with
    | .error e => .error e
    | .ok (b, rest) =>
      match readBits n rest with
      | .error e => .error e
      | .ok (bs, rest') => .ok (b :: bs, rest')

/-- A byte: eight bit cells and an ACK cell (R53). -/
def readByte (es : List Event) : Except DecodeError (Byte × List Event) :=
  match readBits 8 es with
  | .error e => .error e
  | .ok (bits, rest) =>
    match readAckCell rest with
    | .error e => .error e
    | .ok (_, rest') => .ok (byteOfBits bits, rest')

/-- Bytes up to the STOP, at most `fuel` of them (R56). -/
def readBytesToStop : Nat → List Event → Except DecodeError (List Byte × List Event)
  | 0, _ => .error .truncated
  | fuel + 1, es =>
    match readStop es with
    | .ok rest => .ok ([], rest)
    | .error _ =>
      match readByte es with
      | .error e => .error e
      | .ok (b, rest) =>
        match readBytesToStop fuel rest with
        | .error e => .error e
        | .ok (bs, rest') => .ok (b :: bs, rest')

/-- The 7-bit address of an address byte (R57). -/
def readAddress (b : Byte) : Except DecodeError (BitVec 7) :=
  if b.getLsbD 0 then .error .readAddress else .ok ((b >>> 1).setWidth 7)

/-- The control byte (R58). -/
def readControl (b : Byte) : Except DecodeError Control :=
  if b = 0x00#8 then .ok .command else if b = 0x40#8 then .ok .data else .error .badControl

/-- A frame's bytes as the FRAME row: address byte, control byte, payload (R56). -/
def frameOfBytes : List Byte → Except DecodeError Instr
  | a :: c :: payload =>
    match readAddress a with
    | .error e => .error e
    | .ok addr =>
      match readControl c with
      | .error e => .error e
      | .ok ctl => .ok (.frame addr ctl payload)
  | _ => .error .truncated

/-- The wire format of a slot of events, and the events after it (R50). -/
def decodeEvents (slot : Slot) (es : List Event) : Except DecodeError (Instr × List Event) :=
  match slot with
  | .bitCell =>
    match readBitCell es with
    | .error e => .error e
    | .ok (b, rest) => .ok (if b then .bit1 else .bit0, rest)
  | .ackCell =>
    match readAckCell es with
    | .error e => .error e
    | .ok (.release, rest) => .ok (.ackRelease, rest)
    | .ok (.driveLow, rest) => .ok (.ackDriveLow, rest)
    | .ok (.holdLast, rest) => .ok (.ackHoldLast, rest)
  | .edgeCell =>
    match readStart es with
    | .ok rest => .ok (.startCell, rest)
    | .error _ =>
      match readStop es with
      | .ok rest => .ok (.stopCell, rest)
      | .error e => .error e
  | .byteCells =>
    match readByte es with
    | .error e => .error e
    | .ok (v, rest) => .ok (.byteCells v, rest)
  | .frame =>
    match readStart es with
    | .error e => .error e
    | .ok rest =>
      match readBytesToStop (rest.length + 1) rest with
      | .error e => .error e
      | .ok (bs, rest') =>
        match frameOfBytes bs with
        | .error e => .error e
        | .ok i => .ok (i, rest')
  | _ => .error .notThisCell

/-! ### Bytes -/

/-- Item bytes at the head of the bytes. -/
def readItem (item bs : List Byte) (i : Instr) : Except DecodeError (Instr × List Byte) :=
  if bs.take item.length = item then .ok (i, bs.drop item.length) else .error .notThisItem

/-- A command byte, with its value byte where it has one (R59 to R64, R71). -/
def readCommand : List Byte → Except DecodeError (Instr × List Byte)
  | [] => .error .truncated
  | c :: rest =>
    if c = 0xAE#8 then .ok (.displayOff, rest)
    else if c = 0xAF#8 then .ok (.displayOn, rest)
    else if c = 0x81#8 then
      match rest with
      | [] => .error .truncated
      | v :: rest' => .ok (.cmdContrast v, rest')
    else if isPageByte c then .ok (.setPage (c.setWidth 3), rest)
    else if isColLowByte c then .ok (.setColLow (c.setWidth 4), rest)
    else if isColHighByte c then .ok (.setColHigh (c.setWidth 4), rest)
    else .error .unknownCommand

/-- The three bytes of a position (R65). -/
def readPosition : List Byte → Except DecodeError (Instr × List Byte)
  | p :: l :: h :: rest =>
    if isPageByte p && isColLowByte l && isColHighByte h then
      .ok (.positionTriplet (p.setWidth 3) (l.setWidth 4) (h.setWidth 4), rest)
    else .error .unknownCommand
  | _ => .error .truncated

/-- The wire format of a slot of bytes, and the bytes after it (R57 to R68). -/
def decodeBytes (cfg : Config) (slot : Slot) (bs : List Byte) : Except DecodeError (Instr × List Byte) :=
  match slot with
  | .address =>
    match bs with
    | [] => .error .truncated
    | b :: rest =>
      match readAddress b with
      | .error e => .error e
      | .ok a => .ok (.addrByte a, rest)
  | .control =>
    match bs with
    | [] => .error .truncated
    | b :: rest =>
      match readControl b with
      | .error e => .error e
      | .ok .command => .ok (.ctrlCmd, rest)
      | .ok .data => .ok (.ctrlData, rest)
  | .command => readCommand bs
  | .position => readPosition bs
  | .data =>
    match bs with
    | [] => .error .truncated
    | d :: rest => .ok (.dataByte d, rest)
  | .initItem 1 => readItem [displayOffByte] bs .initDisplayOff
  | .initItem 2 => readItem (itemMuxRatio cfg) bs .initMuxRatio
  | .initItem 3 => readItem (itemDisplayOffset cfg) bs .initDisplayOffset
  | .initItem 4 =>
    match bs with
    | c :: f :: rest => if c = cfg.opcClkDiv then .ok (.initClockDivide f, rest) else .error .notThisItem
    | _ => .error .truncated
  | .initItem 5 => readItem cfg.seqCpEn bs .initChargePumpEnableSeq
  | .initItem 6 => readItem cfg.seqRemap bs .initSegComRemap
  | .initItem 7 => readItem (itemChargePump cfg) bs .initChargePump
  | .initItem 8 => readItem [displayOnByte] bs .initDisplayOn
  | .initItem 9 => readItem (itemAddressingMode cfg) bs .initAddressingMode
  | .initItem 10 =>
    match bs with
    | c :: p :: rest => if c = cfg.opcPrechg then .ok (.initPrecharge p, rest) else .error .notThisItem
    | _ => .error .truncated
  | .initItem 11 => readItem (itemVcomhDeselect cfg) bs .initVcomhDeselect
  | _ => .error .unassignedWord

/-! ### Frame shapes -/

/-- Where `refreshFrequency` stands in `INIT_BODY` (R68). -/
def initRfAt : Nat := 6

/-- Where `preChargePeriod` stands in `INIT_BODY` (R68). -/
def initPcAt (cfg : Config) : Nat := 13 + cfg.seqCpEn.length + cfg.seqRemap.length

/-- The operands of an initialisation payload, if it is one (R67, R68). -/
def readInitBody (cfg : Config) (body : List Byte) : Option (Byte × Byte) :=
  let pc := body.getD (initPcAt cfg) 0#8
  let rf := body.getD initRfAt 0#8
  if body = initBody cfg pc rf then some (pc, rf) else none

/-- The shape of a command frame from its payload after `0x00` (R74). -/
def readCommandShape (cfg : Config) (body : List Byte) : Except DecodeError Instr :=
  match readInitBody cfg body with
  | some (pc, rf) => .ok (.frameInit pc rf)
  | none =>
    match body with
    | [c] => .ok (.frameCommand1 c)
    | [c1, c2] => .ok (.frameCommand2 c1 c2)
    | [p, l, h] =>
      if isPageByte p && isColLowByte l && isColHighByte h && h.getLsbD 3 == false then
        .ok (.framePosition (p.setWidth 3) ((h.setWidth 3 ++ l.setWidth 4 : BitVec 7)))
      else .error .notAShape
    | _ => .error .notAShape

/-- A whole frame's bytes: the address it goes to and its shape (R74). -/
def decodeShape (cfg : Config) : List Byte → Except DecodeError (BitVec 7 × Instr)
  | a :: c :: body =>
    match readAddress a with
    | .error e => .error e
    | .ok addr =>
      match readControl c with
      | .error e => .error e
      | .ok .data => .ok (addr, .frameData body)
      | .ok .command =>
        match readCommandShape cfg body with
        | .error e => .error e
        | .ok i => .ok (addr, i)
  | _ => .error .truncated

/-! ### The words of the opcode table -/

/-- A word of the opcode table on its own, with no position to tell it by: a position triplet, a command, a control
byte, an address byte, in this order (log entry 8: `0x00` is read as CTRL_CMD, whose only word it is). -/
def decodeWord (bs : List Byte) : Except DecodeError (Instr × List Byte) :=
  match readPosition bs with
  | .ok r => .ok r
  | .error _ =>
    match bs with
    | [] => .error .truncated
    | b :: rest =>
      match readControl b with
      | .ok .command => .ok (.ctrlCmd, rest)
      | .ok .data => .ok (.ctrlData, rest)
      | .error _ =>
        match readCommand bs with
        | .ok r => .ok r
        | .error .truncated => .error .truncated
        | .error _ =>
          match readAddress b with
          | .ok a => .ok (.addrByte a, rest)
          | .error _ => .error .unassignedWord

/-- The bytes of a table word in the order they go on the wire. The table's one word of three bytes, the position
triplet, is numbered with its first byte at the top (its `p` field is bits 18..16); a one-byte row's word is its first
byte, and the bytes after it are zeros (log entry 8). -/
def wordBytes (nbits w : Nat) : List Byte :=
  if nbits = 24 then [BitVec.ofNat 8 (w / 65536), BitVec.ofNat 8 (w / 256), BitVec.ofNat 8 w]
  else [BitVec.ofNat 8 w, BitVec.ofNat 8 (w / 256), 0#8]

/-- The instruction the decoder reads from a table word. -/
def decodeTableWord (nbits w : Nat) : Option Instr :=
  match decodeWord (wordBytes nbits w) with
  | .ok (i, _) => some i
  | .error _ => none

/-! ### The encoder -/

/-- The slot a row stands in. -/
def Instr.slot : Instr → Slot
  | .bit1 | .bit0 => .bitCell
  | .ackRelease | .ackDriveLow | .ackHoldLast => .ackCell
  | .startCell | .stopCell => .edgeCell
  | .byteCells _ => .byteCells
  | .frame _ _ _ => .frame
  | .addrByte _ => .address
  | .ctrlCmd | .ctrlData => .control
  | .displayOff | .displayOn | .cmdContrast _ | .setPage _ | .setColLow _ | .setColHigh _ => .command
  | .positionTriplet _ _ _ => .position
  | .dataByte _ => .data
  | .initDisplayOff => .initItem 1
  | .initMuxRatio => .initItem 2
  | .initDisplayOffset => .initItem 3
  | .initClockDivide _ => .initItem 4
  | .initChargePumpEnableSeq => .initItem 5
  | .initSegComRemap => .initItem 6
  | .initChargePump => .initItem 7
  | .initDisplayOn => .initItem 8
  | .initAddressingMode => .initItem 9
  | .initPrecharge _ => .initItem 10
  | .initVcomhDeselect => .initItem 11
  | .frameCommand1 _ | .frameCommand2 _ _ | .framePosition _ _ | .frameData _ | .frameInit _ _ => .shape
  | .sdaSetHigh | .sdaSetLow | .sdaSetDirectionOutput | .sdaSetDirectionInput => .call
  | .sclSetHigh | .sclSetLow | .sclSetDirectionOutput | .sclSetDirectionInput | .precisionDelay _ => .call
  | .clockBit _ | .ackSlot | .byteOut _ | .beginFrame _ | .writeBytes _ _ | .endFrame | .transaction _ => .call
  | .sendCommand _ | .sendCommand2 _ _ | .setPosition _ _ | .writeDataBlock _ _ => .call
  | .initializePanel _ _ _ | .setPower _ | .setContrast _ => .call
  | .pixel _ _ | .setPixel _ _ _ | .setPixelByte _ _ _ | .setPixelImmediate _ _ | .fill _ => .call
  | .loadBlock _ _ _ | .flush | .flushByte => .call

/-- The bytes of a row that is written in bytes (R57 to R68); `none` for cells, frames and operations. -/
def encodeBytes (cfg : Config) : Instr → Option (List Byte)
  | .addrByte a => some [addressByte a]
  | .ctrlCmd => some [controlByte .command]
  | .ctrlData => some [controlByte .data]
  | .displayOff => some [displayOffByte]
  | .displayOn => some [displayOnByte]
  | .cmdContrast v => some [contrastOpcode, v]
  | .setPage p => some [pageByte p.toNat]
  | .setColLow l => some [lowNibbleByte l]
  | .setColHigh h => some [highNibbleByte h]
  | .positionTriplet p l h => some [pageByte p.toNat, lowNibbleByte l, highNibbleByte h]
  | .dataByte d => some [d]
  | .initDisplayOff => some [displayOffByte]
  | .initMuxRatio => some (itemMuxRatio cfg)
  | .initDisplayOffset => some (itemDisplayOffset cfg)
  | .initClockDivide f => some (itemClockDivide cfg f)
  | .initChargePumpEnableSeq => some cfg.seqCpEn
  | .initSegComRemap => some cfg.seqRemap
  | .initChargePump => some (itemChargePump cfg)
  | .initDisplayOn => some [displayOnByte]
  | .initAddressingMode => some (itemAddressingMode cfg)
  | .initPrecharge p => some (itemPrecharge cfg p)
  | .initVcomhDeselect => some (itemVcomhDeselect cfg)
  | _ => none

/-- The bytes after the address byte of a frame shape (R74); `none` for every other row. -/
def shapeBytes (cfg : Config) : Instr → Option (List Byte)
  | .frameCommand1 c => some [controlByte .command, c]
  | .frameCommand2 c1 c2 => some [controlByte .command, c1, c2]
  | .framePosition p col => some (controlByte .command :: positionBytes col.toNat p.toNat)
  | .frameData ds => some (controlByte .data :: ds)
  | .frameInit pc rf => some (controlByte .command :: initBody cfg pc rf)
  | _ => none

/-- The bytes of a frame shape sent to address `a`, the address byte first (R57, R74). -/
def encodeShape (cfg : Config) (a : BitVec 7) (i : Instr) : Option (List Byte) :=
  (shapeBytes cfg i).map (addressByte a :: ·)

/-- The events of a cell, a byte or a FRAME row (R51 to R56); `none` for every other row. -/
def encodeEvents (mode : AckMode) (d : Nat) : Instr → Option (List Event)
  | .bit1 => some (bitCell d true)
  | .bit0 => some (bitCell d false)
  | .ackRelease => some (ackCell .release d)
  | .ackDriveLow => some (ackCell .driveLow d)
  | .ackHoldLast => some (ackCell .holdLast d)
  | .startCell => some (startWave d)
  | .stopCell => some (stopWave d)
  | .byteCells v => some (byteWave mode d v)
  | .frame a ctl payload => some (frameWave mode d a (controlByte ctl :: payload))
  | _ => none

/-- The waveform of a wire format sent to address `a` (R50); `none` for an operation, which has no code (D27). -/
def encode (cfg : Config) (d : Nat) (a : BitVec 7) (i : Instr) : Option (List Event) :=
  match encodeEvents cfg.ackMode d i with
  | some es => some es
  | none =>
    match encodeBytes cfg i with
    | some bs => some (bytesWave cfg.ackMode d bs)
    | none => (shapeBytes cfg i).map (frameWave cfg.ackMode d a)

end Sys2Proof
end

