-- ==== Sys2Proof/Machine/State.lean ====
section
/-!
DEFINITION. The state, as plain data: the block's tuple of spec/10_state.md R10, the construction arguments of
00_scope.md R4, the observer of the wire (30_encoding.md R73), the reference receiver (60_exceptions.md R180), and
three fields of the model's own (`requests`, `result`, `draws`; log entries 7 and 12). Reset is construction (R25, R190).
-/

namespace Sys2Proof.Machine

/-- A memory: (address, byte) pairs, addresses strictly rising. -/
abbrev Mem := List Host.Cell

/-- A line cell: latch level and direction, independent of each other (R11, R12). -/
structure Line where
  latch : Level
  dir   : Dir
deriving DecidableEq, Repr

/-- The two line cells `SDA` and `SCL` (R11, R12). -/
structure Pins where
  sda : Line
  scl : Line
deriving DecidableEq, Repr

/-- The sequencer position `SEQ`: idle, or the running public operation and how many of its primitives have been
performed (R17). -/
inductive Seq where
  | idle
  | running (op : Instr) (index : Nat)
deriving DecidableEq, Repr

/-- What the observer of the wire has collected (R73). -/
structure Rx where
  /-- A START has been seen and no STOP since. -/
  active : Bool
  /-- Bits sampled of the current group of nine, 0 to 8. -/
  count  : Nat
  /-- The sampled bits, the newest in bit 0. -/
  shift  : Byte
  /-- The bytes formed since the START, oldest first. -/
  bytes  : List Byte
deriving DecidableEq, Repr

/-- The reference receiver's state (R180). -/
structure Panel where
  /-- Its own address `A`. -/
  address   : BitVec 7
  /-- `GRAM[page][column]` at index `128 * page + column`; an unlisted byte has not been written since power-up. -/
  gram      : Mem
  curPage   : BitVec 3
  curCol    : BitVec 7
  displayOn : Bool
  contrast  : Byte
deriving DecidableEq, Repr

/-- What the last value-returning operation handed back: a status (R166) or a pixel (R135). -/
inductive Result where
  | nothing
  | status (st : Status)
  | pixel (set : Bool)
deriving DecidableEq, Repr

/-- What can stand at the head of the caller's queue (log entry 7). -/
inductive Request where
  /-- An operation by name and operands (D27). -/
  | call (i : Instr)
  /-- A wire format by its bytes, as spec/opcode_table.json writes them. -/
  | word (bytes : List Byte)
deriving DecidableEq, Repr

structure State where
  /-- Construction arguments; no operation changes them (R4, R15). -/
  cfg      : Config
  /-- `SDA` and `SCL` (R11, R12). -/
  pins     : Pins
  /-- `ADDR`: unset, or the 7-bit device address (R14). -/
  addr     : Option (BitVec 7)
  /-- `DELAY`, microseconds (R15). -/
  delay    : Nat
  /-- `BUS_OPEN` (R16). -/
  busOpen  : Bool
  /-- `SEQ` (R17). -/
  seq      : Seq
  /-- `FB`; an unlisted byte reads as `0x00` (R18, log entry 3). -/
  fb       : Mem
  /-- `DIRTY[0]` to `DIRTY[7]` (R19). -/
  dirty    : Vector Bool 8
  /-- `SHADOW`; an unlisted entry is `unknown` (R20). -/
  shadow   : Mem
  /-- `TRACE`, oldest first (R22). -/
  trace    : List Event
  /-- The observer of the wire (R73). -/
  rx       : Rx
  /-- The reference receiver (R180). -/
  panel    : Panel
  /-- What the caller has asked for and the block has not begun, next first. -/
  requests : List Request
  /-- The value handed back last. -/
  result   : Result
  /-- How many free values have been taken. -/
  draws    : Nat
deriving DecidableEq, Repr

/-- The block has no fault: "No operation in the core throws or aborts the process; all failure signaling is via return
status" (R170). -/
inductive Fault
deriving DecidableEq, Repr

/-- Why a step is refused: "a situation the spec gives no meaning; the model stops there" (00_scope.md section 7). All
are safe: nothing is claimed after one (R206). -/
inductive Refusal where
  /-- Raised by an arm of `exec` that gives no meaning (there is none). Safe. -/
  | notModelled (mnemonic : String)
  /-- Raised by `begin` and everything that begins a frame, while one is open (R98, R101, U1). Safe. -/
  | beginWhileOpen
  /-- Raised by `writeBytes` with no frame open (R99, R101, U2). Safe. -/
  | writeWhileClosed
  /-- Raised by `end` with no frame open (R100, R101, U2). Safe. -/
  | endWhileClosed
  /-- Raised by every operation that sends a frame to `x[ADDR]`, while `ADDR` is unset (R106, R123, U3). Safe. -/
  | addressUnset
  /-- Raised by the framebuffer operations and `flush` before the first `initialize` (R191, U3). Safe. -/
  | beforeInitialize
  /-- Raised by `writeBytes`, `writeDataBlock` and `loadBlock` on a buffer shorter than its length (R23, U4). Safe. -/
  | bufferTooShort
  /-- Raised by `setPosition` on a column or page the panel does not have (R117, U7). Safe. -/
  | positionOutOfRange
  /-- Raised by `initialize` on an operand too wide (R119, U9). Safe. -/
  | initOperandOutOfRange
  /-- Raised by `loadBlock` on a negative operand (R139, U6). Safe. -/
  | loadBlockNegative
  /-- Raised by `loadBlock` with `GRANULARITY = byte` on an unaligned offset (R139, U6). Safe. -/
  | loadBlockUnaligned
  /-- Raised by `loadBlock` on a range that leaves the framebuffer (R139, U6). Safe. -/
  | loadBlockOutOfRange
  /-- Raised by a public operation called while another is running (R41, U5). Safe. -/
  | reentrantCall
  /-- Raised by `step` on a request whose bytes are no word of the opcode table. Safe. -/
  | undecodable
deriving DecidableEq, Repr

/-- The outcome type of every meaning. -/
abbrev Out := Host.Outcome State Fault Refusal

/-- The state right after construction (R25, R190). Where R25 says unspecified the value is the model's: log entries 1
(latches), 2 (`DIRTY`), 3 (`FB`) and 4 (the panel's registers). -/
def State.reset : State where
  cfg      := Config.constructed
  pins     := { sda := { latch := .low, dir := .input }, scl := { latch := .low, dir := .input } }
  addr     := none
  delay    := Config.halfBitDelayUs
  busOpen  := false
  seq      := .idle
  fb       := []
  dirty    := Vector.replicate 8 false
  shadow   := []
  trace    := []
  rx       := { active := false, count := 0, shift := 0#8, bytes := [] }
  panel    := { address := Config.panelAddress, gram := [], curPage := 0#3, curCol := 0#7, displayOn := false,
                contrast := 0#8 }
  requests := []
  result   := .nothing
  draws    := 0

end Sys2Proof.Machine
end

