-- ==== Sys2Proof/Machine/Memory.lean ====
section
/-!
DEFINITION. The operations on a memory (log entry 3): looking a byte up, writing a run of bytes, and the canonical form.
The framebuffer keeps no entry `0x00`, which is what an unlisted byte of it reads as; the shadow and the panel's RAM keep
every entry, since there an unlisted byte is unknown (spec/10_state.md R18, R20; 60_exceptions.md R180).
-/

namespace Sys2Proof.Machine

/-- The byte listed at an address. -/
def Mem.lookup (m : Mem) (a : Nat) : Option Byte :=
  match m with
  | [] => none
  | (b, v) :: rest => if a = b then some v else Mem.lookup rest a

/-- The cells of a run of bytes from address `a` on. -/
def Mem.cellsFrom (a : Nat) (vs : List Byte) : Mem :=
  match vs with
  | [] => []
  | v :: rest => (a, v) :: Mem.cellsFrom (a + 1) rest

/-- Writes the bytes `vs` from address `a` on, listing those that `keep` keeps. -/
def Mem.blit (keep : Byte → Bool) (m : Mem) (a : Nat) (vs : List Byte) : Mem :=
  m.filter (fun c => decide (c.1 < a)) ++ (Mem.cellsFrom a vs).filter (fun c => keep c.2)
    ++ m.filter (fun c => decide (a + vs.length ≤ c.1))

/-- What the framebuffer lists: every byte but `0x00`. -/
def keepNonzero (v : Byte) : Bool := v != 0#8

/-- What the shadow and the panel's RAM list: every byte. -/
def keepAll (_ : Byte) : Bool := true

/-- `MemWrite(a, n, vs)` on the framebuffer. -/
def fbWrite (m : Mem) (a : Nat) (vs : List Byte) : Mem := m.blit keepNonzero a vs

/-- The byte of the framebuffer at index `a`. -/
def fbLookup (m : Mem) (a : Nat) : Byte := (m.lookup a).getD 0#8

/-- Writes known bytes into the shadow or the panel's RAM. -/
def knownWrite (m : Mem) (a : Nat) (vs : List Byte) : Mem := m.blit keepAll a vs

/-- Addresses strictly rise from `lo` on, stay below `hi`, and every listed byte is one `keep` keeps. -/
def Mem.wfFrom (keep : Byte → Bool) (hi lo : Nat) : Mem → Bool
  | [] => true
  | (a, v) :: rest => decide (lo ≤ a ∧ a < hi) && keep v && Mem.wfFrom keep hi (a + 1) rest

/-- The canonical form of the framebuffer (R18: indices 0 to 1023). -/
def Memory.wf (m : Mem) : Bool := m.wfFrom keepNonzero 1024 0

/-- The canonical form of the shadow and of the panel's RAM (R20, R180: 1024 entries). -/
def Memory.wfKnown (m : Mem) : Bool := m.wfFrom keepAll 1024 0

end Sys2Proof.Machine
end

