-- ==== Sys2Proof/Machine/Panel.lean ====
section
/-!
DEFINITION. The pins under events (spec/40_pin_primitives.md R81 to R89), the wire level (10_state.md R13), the observer
that reads frames back (30_encoding.md R73) and the reference receiver (60_exceptions.md R180).
-/

namespace Sys2Proof.Machine

/-! ### Pins and wire -/

/-- What one primitive does to the two line cells: a latch or a direction, never both (R81 to R89). -/
def Pins.apply (p : Pins) (e : Event) : Pins :=
  match e with
  | .sdaHigh => { p with sda := { p.sda with latch := .high } }
  | .sdaLow => { p with sda := { p.sda with latch := .low } }
  | .sdaOut => { p with sda := { p.sda with dir := .output } }
  | .sdaIn => { p with sda := { p.sda with dir := .input } }
  | .sclHigh => { p with scl := { p.scl with latch := .high } }
  | .sclLow => { p with scl := { p.scl with latch := .low } }
  | .sclOut => { p with scl := { p.scl with dir := .output } }
  | .sclIn => { p with scl := { p.scl with dir := .input } }
  | .delay _ => p

/-- The pins after a list of events. -/
def Pins.applyAll (p : Pins) (es : List Event) : Pins := es.foldl Pins.apply p

/-- The level the block drives, `none` when the line is released (R13). -/
def Line.driven (l : Line) : Option Level :=
  match l.dir with
  | .output => some l.latch
  | .input => none

/-- The wire level an observer sees: the driven level, or high when released unless the environment holds the line low
(R13, D10). -/
def Line.wire (l : Line) (heldLow : Bool) : Level :=
  match l.driven with
  | some v => v
  | none => if heldLow then .low else .high

/-- The data wire as the decoder of R73 reads it, a released line read as high. -/
def Pins.dataWire (p : Pins) : Level := p.sda.wire false

/-- The clock wire as the decoder of R73 reads it. -/
def Pins.clockWire (p : Pins) : Level := p.scl.wire false

/-! ### The observer (R73) -/

/-- An event at which the data wire falls while the clock wire is high before and after. -/
def isStart (p p' : Pins) : Bool :=
  p.dataWire == .high && p'.dataWire == .low && p.clockWire == .high && p'.clockWire == .high

/-- An event at which the data wire rises while the clock wire is high before and after. -/
def isStop (p p' : Pins) : Bool :=
  p.dataWire == .low && p'.dataWire == .high && p.clockWire == .high && p'.clockWire == .high

/-- An event at which the clock wire rises. -/
def isSample (p p' : Pins) : Bool :=
  p.clockWire == .low && p'.clockWire == .high

/-- Nothing collected, no frame open. -/
def Rx.quiet : Rx := { active := false, count := 0, shift := 0#8, bytes := [] }

/-- One sampled bit: eight form a byte, most significant first; the ninth is the ACK slot, which is dropped and ends the
group. -/
def Rx.sample (rx : Rx) (b : Bool) : Rx :=
  if rx.count < 8 then
    { rx with count := rx.count + 1, shift := (rx.shift <<< 1) ||| (if b then 1#8 else 0#8) }
  else { rx with count := 0, bytes := rx.bytes ++ [rx.shift] }

/-- The observer across one event, the pins before and after it given (R73). A START opens a frame anew; a STOP closes it
and discards an incomplete group. -/
def Rx.see (rx : Rx) (p p' : Pins) : Rx :=
  if isStart p p' then { active := true, count := 0, shift := 0#8, bytes := [] }
  else if isStop p p' then Rx.quiet
  else if isSample p p' && rx.active then rx.sample (p'.dataWire == .high)
  else rx

/-- The frame an event completes: the bytes formed since the START, at a STOP (R73). -/
def Rx.completes (rx : Rx) (p p' : Pins) : Option (List Byte) :=
  if isStop p p' && rx.active then some rx.bytes else none

/-- The observer after a list of events (R73). -/
def Rx.after (rx : Rx) (p : Pins) : List Event → Rx
  | [] => rx
  | e :: es => Rx.after (rx.see p (p.apply e)) (p.apply e) es

/-- The frames completed by a list of events, in order (R73). -/
def Rx.frames (rx : Rx) (p : Pins) : List Event → List (List Byte)
  | [] => []
  | e :: es =>
    match rx.completes p (p.apply e) with
    | some f => f :: Rx.frames (rx.see p (p.apply e)) (p.apply e) es
    | none => Rx.frames (rx.see p (p.apply e)) (p.apply e) es

/-! ### The reference receiver (R180) -/

/-- A byte of `GRAM`: what was written last, or the unspecified power-up byte (R180). -/
def Panel.gramByte (p : Panel) (page column : Nat) : Byte :=
  (p.gram.lookup (128 * page + column)).getD (Config.gramPowerUp (128 * page + column))

/-- A command of one byte with its effect, or any other byte, which changes none of the receiver's state (R180). -/
def Panel.command (p : Panel) (c : Byte) : Panel :=
  if c = displayOffByte then { p with displayOn := false }
  else if c = displayOnByte then { p with displayOn := true }
  else if isPageByte c then { p with curPage := c.setWidth 3 }
  else if isColLowByte c then { p with curCol := (p.curCol &&& 0x70#7) ||| (c.setWidth 4).setWidth 7 }
  else if isColHighByte c then { p with curCol := ((c.setWidth 3).setWidth 7 <<< 4) ||| (p.curCol &&& 0x0F#7) }
  else p

/-- The one-byte commands R59, R60, R62 to R64. -/
def isOneByteCommand (c : Byte) : Bool :=
  c == displayOffByte || c == displayOnByte || isPageByte c || isColLowByte c || isColHighByte c

/-- The opcodes of the two-byte commands of the initialisation sequence (R68, R71). -/
def initOpcodes (cfg : Config) : List Byte :=
  [cfg.opcMux, cfg.opcOffset, cfg.opcClkDiv, cfg.opcChgPump, cfg.opcAddrMode, cfg.opcPrechg, cfg.opcVcomh]

/-- The bytes that take a value byte: contrast, and the valued items of R68 (R71). -/
def takesValue (cfg : Config) (c : Byte) : Bool :=
  c == contrastOpcode || (!isOneByteCommand c && (initOpcodes cfg).contains c)

/-- A command of two bytes: contrast sets `CONTRAST`; those of the initialisation sequence change nothing (R180). -/
def Panel.valued (p : Panel) (c v : Byte) : Panel :=
  if c = contrastOpcode then { p with contrast := v } else p

/-- A command stream, each command with the length R71 gives it (R180). A two-byte command cut off by the end of the frame
changes nothing. -/
def Panel.commands (cfg : Config) (p : Panel) : List Byte → Panel
  | [] => p
  | c :: rest =>
    if takesValue cfg c then
      match rest with
      | [] => p
      | v :: rest' => Panel.commands cfg (p.valued c v) rest'
    else Panel.commands cfg (p.command c) rest

/-- One data byte: `GRAM[CUR_PAGE][CUR_COL] <- d`, then `CUR_COL` steps; past column 127 the cursor is `PANEL_WRAP`'s
(R180). -/
def Panel.dataByte (p : Panel) (d : Byte) : Panel :=
  let gram := knownWrite p.gram (128 * p.curPage.toNat + p.curCol.toNat) [d]
  if p.curCol = 127#7 then
    { p with gram := gram, curPage := (Config.panelWrap p.curPage).1, curCol := (Config.panelWrap p.curPage).2 }
  else { p with gram := gram, curCol := p.curCol + 1#7 }

/-- Data bytes in order (R180). -/
def Panel.dataBytes (p : Panel) (ds : List Byte) : Panel := ds.foldl Panel.dataByte p

/-- The payload of an initialisation frame (R67): `AE` as its first item and `AF` as its eighth act on the display, "those
of the initialisation sequence" change nothing (R180). -/
def Panel.initialisation (p : Panel) : Panel := (p.command displayOffByte).command displayOnByte

/-- The receiver on one decoded frame (R180): frames to another address are ignored; `0x00` begins commands, `0x40` data; a
frame with no control byte of R58 changes nothing. -/
def Panel.receive (cfg : Config) (p : Panel) (frame : List Byte) : Panel :=
  match frame with
  | a :: c :: payload =>
    if a = addressByte p.address then
      if c = controlByte .command then
        if (readInitBody cfg payload).isSome then p.initialisation else p.commands cfg payload
      else if c = controlByte .data then p.dataBytes payload
      else p
    else p
  | _ => p

/-- "The receiver acknowledges every byte of a frame addressed to it" (R180): whether it pulls the data line low in the ACK
slot that follows the eight bits just collected. No rule of the block reads it (R103, R179). -/
def Panel.acknowledges (p : Panel) (rx : Rx) : Bool :=
  rx.active && rx.count == 8 && (rx.bytes ++ [rx.shift]).head? == some (addressByte p.address)

end Sys2Proof.Machine
end

