-- ==== Sys2Proof/WellFormed.lean ====
section
/-!
DEFINITION. The operand domains the spec gives (spec/41_bus_transport.md R99, R106; 42_device_command.md R117 to R119;
43_framebuffer.md R135, R139; 10_state.md R23). The widths of byte, bit and address operands are in `Instr` itself. An
ill-formed call is no error of the decoder: the meaning refuses it by the spec's own name; where the spec leaves only a
value open (`pixel`, log entry 12), and where it names no refusal (`transaction`, log entry 23), the call runs.
-/

namespace Sys2Proof

/-- A control byte of R58. -/
def isControlByte (b : Byte) : Bool :=
  b == 0x00#8 || b == 0x40#8

/-- The operands are in the domain the spec gives the operation. -/
def WellFormed : Instr → Bool
  | .transaction bytes =>
      match bytes with
      | [] => false
      | c :: _ => isControlByte c
  | .writeBytes buffer length => decide (length ≤ buffer.length)
  | .writeDataBlock buffer length => decide (length ≤ buffer.length)
  | .setPosition column page => decide (0 ≤ column ∧ column ≤ 127 ∧ 0 ≤ page ∧ page ≤ 7)
  | .initializePanel address pc rf => decide (address ≤ 127 ∧ pc ≤ 255 ∧ rf ≤ 255)
  | .pixel x y => decide (0 ≤ x ∧ x < 128 ∧ 0 ≤ y ∧ y < 64)
  | .loadBlock buffer byteCount byteOffset =>
      decide (0 ≤ byteCount ∧ 0 ≤ byteOffset ∧ 128 * (byteOffset / 128) + byteCount ≤ 1024
        ∧ byteCount ≤ buffer.length)
  | .bit1 | .bit0 | .ackRelease | .ackDriveLow | .ackHoldLast | .startCell | .stopCell => true
  | .byteCells _ | .frame _ _ _ => true
  | .addrByte _ | .ctrlCmd | .ctrlData | .displayOff | .displayOn | .cmdContrast _ | .setPage _ => true
  | .setColLow _ | .setColHigh _ | .positionTriplet _ _ _ | .dataByte _ => true
  | .initDisplayOff | .initMuxRatio | .initDisplayOffset | .initClockDivide _ | .initChargePumpEnableSeq => true
  | .initSegComRemap | .initChargePump | .initDisplayOn | .initAddressingMode | .initPrecharge _ => true
  | .initVcomhDeselect => true
  | .frameCommand1 _ | .frameCommand2 _ _ | .framePosition _ _ | .frameData _ | .frameInit _ _ => true
  | .sdaSetHigh | .sdaSetLow | .sdaSetDirectionOutput | .sdaSetDirectionInput => true
  | .sclSetHigh | .sclSetLow | .sclSetDirectionOutput | .sclSetDirectionInput | .precisionDelay _ => true
  | .clockBit _ | .ackSlot | .byteOut _ | .beginFrame _ | .endFrame => true
  | .sendCommand _ | .sendCommand2 _ _ | .setPower _ | .setContrast _ => true
  | .setPixel _ _ _ | .setPixelByte _ _ _ | .setPixelImmediate _ _ | .fill _ | .flush | .flushByte => true

/-- The seven public operations (R5, R177, D31): what a caller outside the block may ask for. `setPixel` and `flush` have a
row for each granularity; the row of the step inside `setPixel` is no operation of R5 and not public (log entry 11). -/
def Instr.isPublic : Instr → Bool
  | .initializePanel _ _ _ | .setPower _ | .setContrast _ => true
  | .setPixel _ _ _ | .setPixelByte _ _ _ | .fill _ | .loadBlock _ _ _ => true
  | .flush | .flushByte => true
  | .bit1 | .bit0 | .ackRelease | .ackDriveLow | .ackHoldLast | .startCell | .stopCell => false
  | .byteCells _ | .frame _ _ _ => false
  | .addrByte _ | .ctrlCmd | .ctrlData | .displayOff | .displayOn | .cmdContrast _ | .setPage _ => false
  | .setColLow _ | .setColHigh _ | .positionTriplet _ _ _ | .dataByte _ => false
  | .initDisplayOff | .initMuxRatio | .initDisplayOffset | .initClockDivide _ | .initChargePumpEnableSeq => false
  | .initSegComRemap | .initChargePump | .initDisplayOn | .initAddressingMode | .initPrecharge _ => false
  | .initVcomhDeselect => false
  | .frameCommand1 _ | .frameCommand2 _ _ | .framePosition _ _ | .frameData _ | .frameInit _ _ => false
  | .sdaSetHigh | .sdaSetLow | .sdaSetDirectionOutput | .sdaSetDirectionInput => false
  | .sclSetHigh | .sclSetLow | .sclSetDirectionOutput | .sclSetDirectionInput | .precisionDelay _ => false
  | .clockBit _ | .ackSlot | .byteOut _ | .beginFrame _ | .writeBytes _ _ | .endFrame => false
  | .transaction _ | .sendCommand _ | .sendCommand2 _ _ | .setPosition _ _ | .writeDataBlock _ _ => false
  | .pixel _ _ | .setPixelImmediate _ _ => false

end Sys2Proof
end

