-- ==== Sys2Proof/Machine/Ops.lean ====
section
/-!
DEFINITION. The named operations over the state: performing events (spec/40_pin_primitives.md R90), the bus transport
(41_bus_transport.md R98 to R101, R106), the framebuffer accesses (20_memory.md R36), the calling of a public
operation (10_state.md R17, 70_reset_and_hazards.md R191) and the return of a status (60_exceptions.md R166, R175). The
block has no exceptions (R170), so there is no entry and no return to share.
-/

namespace Sys2Proof.Machine

/-! ### Named updates, one field each -/

/-- `x[ADDR] <- a` (R14). -/
def State.setAddr (s : State) (a : Option (BitVec 7)) : State := { s with addr := a }

/-- `BUS_OPEN <- b` (R16). -/
def State.setBusOpen (s : State) (b : Bool) : State := { s with busOpen := b }

/-- `SEQ <- q` (R17). -/
def State.setSeq (s : State) (q : Seq) : State := { s with seq := q }

/-- `FB <- m` (R18). -/
def State.setFb (s : State) (m : Mem) : State := { s with fb := m }

/-- `DIRTY <- d`, all eight (R19). -/
def State.setDirty (s : State) (d : Vector Bool 8) : State := { s with dirty := d }

/-- `SHADOW <- m`, an unlisted entry unknown (R20). -/
def State.setShadow (s : State) (m : Mem) : State := { s with shadow := m }

/-- The caller's queue. -/
def State.setRequests (s : State) (rs : List Request) : State := { s with requests := rs }

/-- The value handed back. -/
def State.setResult (s : State) (r : Result) : State := { s with result := r }

/-- One more free value taken. -/
def State.countDraw (s : State) : State := { s with draws := s.draws + 1 }

/-! ### Sequencing and events -/

/-- `o`, then `f` on its state; a stop stays a stop. -/
def andThen (o : Out) (f : State → Out) : Out :=
  match o with
  | .next s => f s
  | .fault r => .fault r
  | .refused r => .refused r

/-- `SEQ` after `n` primitives: it "advances by one per primitive" while an operation runs (R17, R90). -/
def Seq.advance (q : Seq) (n : Nat) : Seq :=
  match q with
  | .idle => .idle
  | .running op i => .running op (i + n)

/-- The panel after the frames that a list of events completes (R73, R180). -/
def State.panelAfter (s : State) (es : List Event) : Panel :=
  (s.rx.frames s.pins es).foldl (Panel.receive s.cfg) s.panel

/-- Performs a list of pin primitives: each changes at most one latch or direction, appends its event to `TRACE` and
advances `SEQ` by one (R81 to R90); the observer and the panel see the wire (R73, R180). -/
def State.perform (s : State) (es : List Event) : State :=
  { s with
    pins := s.pins.applyAll es
    seq := s.seq.advance es.length
    trace := s.trace ++ es
    rx := s.rx.after s.pins es
    panel := s.panelAfter es }

/-! ### Waveforms at the state's delay and mode -/

/-- The events of bytes with this state's `ACK_SDA_MODE` and `DELAY` (R53). -/
def State.bytesEvents (s : State) (bs : List Byte) : List Event := bytesWave s.cfg.ackMode s.delay bs

/-- Clocks out bytes, with no check: the helpers of R95 to R97 have none. -/
def State.sendBytes (s : State) (bs : List Byte) : State := s.perform (s.bytesEvents bs)

/-! ### The bus transport -/

/-- `begin(deviceAddress)` (R98). -/
def opBegin (a : BitVec 7) (s : State) : Out :=
  if s.busOpen then .refused .beginWhileOpen
  else .next ((s.perform (startWave s.delay ++ byteWave s.cfg.ackMode s.delay (addressByte a))).setBusOpen true)

/-- `writeBytes(buffer, length)` (R99, R102); a short buffer is refused (R23). DESIGN CHOICE (log entry 24): with no frame open
as well, the closed frame is the one reported. -/
def opWriteBytes (buffer : List Byte) (length : Nat) (s : State) : Out :=
  if s.busOpen then
    if buffer.length < length then .refused .bufferTooShort
    else .next (s.sendBytes (buffer.take length))
  else .refused .writeWhileClosed

/-- `end()` (R100). -/
def opEnd (s : State) : Out :=
  if s.busOpen then .next ((s.perform (stopWave s.delay)).setBusOpen false)
  else .refused .endWhileClosed

/-- One frame to a given address: `begin`, `writeBytes`, `end` (R56, R101). -/
def opFrame (a : BitVec 7) (bytes : List Byte) (s : State) : Out :=
  andThen (andThen (opBegin a s) (opWriteBytes bytes bytes.length)) opEnd

/-- `transaction(bytes)`: one frame to `x[ADDR]` (R106, R123). R106's operand is a list of one or more bytes whose first is
the control byte. DESIGN CHOICE (log entry 23): on any other list the pseudocode is performed as it stands. -/
def opTransaction (bytes : List Byte) (s : State) : Out :=
  match s.addr with
  | none => .refused .addressUnset
  | some a => opFrame a bytes s

/-! ### Device commands the other layers call -/

/-- `sendCommand(c)` (R115). -/
def opSendCommand (c : Byte) (s : State) : Out :=
  opTransaction [controlByte .command, c] s

/-- `sendCommand2(c1, c2)` (R116). -/
def opSendCommand2 (c1 c2 : Byte) (s : State) : Out :=
  opTransaction [controlByte .command, c1, c2] s

/-- `setPosition(column, page)`; operands outside the panel are refused (R117, D14). -/
def opSetPosition (column page : Int) (s : State) : Out :=
  if 0 ≤ column ∧ column ≤ 127 ∧ 0 ≤ page ∧ page ≤ 7 then
    opTransaction (controlByte .command :: positionBytes column.toNat page.toNat) s
  else .refused .positionOutOfRange

/-- `writeDataBlock(buffer, length)`; a short buffer is refused (R118, R23). DESIGN CHOICE (log entry 24): with `ADDR` unset or a
frame open as well, the short buffer is the one reported. -/
def opWriteDataBlock (buffer : List Byte) (length : Nat) (s : State) : Out :=
  if buffer.length < length then .refused .bufferTooShort
  else opTransaction (controlByte .data :: buffer.take length) s

/-! ### The framebuffer -/

/-- `FB[i]` (R18). -/
def State.fbByte (s : State) (i : Nat) : Byte := fbLookup s.fb i

/-- `MemRead(a, n)` (00_scope.md section 6). -/
def State.fbRead (s : State) (a n : Nat) : List Byte := (List.range n).map fun k => s.fbByte (a + k)

/-- `MemWrite(a, n, vs)` (00_scope.md section 6). -/
def State.fbStore (s : State) (a : Nat) (vs : List Byte) : State := s.setFb (fbWrite s.fb a vs)

/-- Page `p`'s full row of 128 bytes, column 0 first (R34, R150). -/
def State.pageRow (s : State) (p : Nat) : List Byte := s.fbRead (pageStride * p) pageStride

/-- `pixel(x, y)` inside the bitmap (R135). -/
def State.pixelBit (s : State) (x y : Nat) : Bool := (s.fbByte (indexOf x y)).getLsbD (bitOf y)

/-! ### Calling, and returning a value -/

/-- `SHADOW[i]`: `none` is `unknown` (R20). -/
def State.shadowEntry (s : State) (i : Nat) : Option Byte := s.shadow.lookup i

/-- A public operation called: `SEQ` runs through it and returns to idle (R17); a call while another runs is refused
(R41). -/
def callPublic (op : Instr) (body : State → Out) (s : State) : Out :=
  match s.seq with
  | .running _ _ => .refused .reentrantCall
  | .idle => andThen (body (s.setSeq (.running op 0))) fun t => .next (t.setSeq .idle)

/-- The first `initialize` has returned; before that the call is refused (R191, D30). -/
def requireInitialized (body : State → Out) (s : State) : Out :=
  match s.addr with
  | none => .refused .beforeInitialize
  | some _ => body s

/-- Returns a status to the caller (R166, R175). -/
def returnStatus (st : Status) (s : State) : Out := .next (s.setResult (.status st))

/-- Fetching: the operation a request asks for, a word read by the decoder. -/
def Request.instr : Request → Option Instr
  | .call i => some i
  | .word bytes =>
    match decodeWord bytes with
    | .ok (i, _) => some i
    | .error _ => none

/-- The caller's door (R177, D31): only public operations are taken. -/
def State.submit (s : State) (i : Instr) : Option State :=
  if i.isPublic then some (s.setRequests (s.requests ++ [.call i])) else none

end Sys2Proof.Machine
end

