-- ==== Sys2Proof/Machine/Flags.lean ====
section
/-!
DEFINITION. The dirty indicators, the block's only flags (spec/10_state.md R19, R20, R27): how a byte and a page are
found dirty, how a mutation marks and how a flush cleans (20_memory.md R43, R44; 43_framebuffer.md R136 to R139;
44_flush.md R150, R151).
-/

namespace Sys2Proof.Machine

/-- `SHADOW[i]` is unknown or differs from `FB[i]` (R20). -/
def State.shadowDirty (s : State) (i : Nat) : Bool := s.shadowEntry i != some (s.fbByte i)

/-- Some byte of the page is dirty in the sense of R20 (R151). -/
def State.shadowPageDirty (s : State) (p : Nat) : Bool :=
  (List.range pageStride).any fun k => s.shadowDirty (pageStride * p + k)

/-- The page's dirty indicator, by `GRANULARITY` (R150, R151). -/
def State.pageDirty (s : State) (p : Fin 8) : Bool :=
  match s.cfg.variant.granularity with
  | .page => s.dirty[p]
  | .byte => s.shadowPageDirty p

/-- Byte `i` is covered by a set dirty indicator (R43). -/
def State.covered (s : State) (i : Nat) : Bool :=
  match s.cfg.variant.granularity with
  | .page => (s.dirty.toList[i / pageStride]?).getD false
  | .byte => s.shadowDirty i

/-- `DIRTY[p] <- true` for the pages from `lo` to `hi` (R136, R139). -/
def markRange (dirty : Vector Bool 8) (lo hi : Nat) : Vector Bool 8 :=
  Vector.ofFn fun p => dirty[p] || decide (lo ≤ p.val ∧ p.val ≤ hi)

/-- Marks the pages of a mutation (`GRANULARITY = page`); with `GRANULARITY = byte` nothing is marked, the comparison
with the shadow being the definition (R136, R137, R139). -/
def State.markPages (s : State) (lo hi : Nat) : State :=
  match s.cfg.variant.granularity with
  | .page => s.setDirty (markRange s.dirty lo hi)
  | .byte => s

/-- Marks "the entire surface dirty" (R119, R138, C7). -/
def State.markAll (s : State) : State :=
  match s.cfg.variant.granularity with
  | .page => s.setDirty (markRange s.dirty 0 7)
  | .byte => s.setShadow []

/-- Cleans a page that has been sent: its flag cleared, or the shadow of each of its bytes set to the live byte (R150,
R151). -/
def State.cleanPage (s : State) (p : Fin 8) : State :=
  match s.cfg.variant.granularity with
  | .page => s.setDirty (Vector.ofFn fun q => s.dirty[q] && decide (q ≠ p))
  | .byte => s.setShadow (knownWrite s.shadow (pageStride * p.val) (s.pageRow p.val))

end Sys2Proof.Machine
end

