-- ==== Sys2Proof/Machine/DeviceCommands.lean ====
section
/-!
DEFINITION. The device command operations (spec/42_device_command.md R115 to R125).
-/

namespace Sys2Proof.Machine

/-- `sendCommand(c)` (R115). -/
def execSendCommand (c : Byte) (s : State) : Out := opSendCommand c s

/-- `sendCommand2(c1, c2)` (R116). -/
def execSendCommand2 (c1 c2 : Byte) (s : State) : Out := opSendCommand2 c1 c2 s

/-- `setPosition(column, page)` (R117). -/
def execSetPosition (column page : Int) (s : State) : Out := opSetPosition column page s

/-- `writeDataBlock(buffer, length)` (R118). -/
def execWriteDataBlock (buffer : List Byte) (length : Nat) (s : State) : Out := opWriteDataBlock buffer length s

/-- The body of `initialize`: the checks, `ADDR`, the one frame, `FB` cleared, everything dirty (R119, R192). -/
def initializeBody (address pc rf : Nat) (s : State) : Out :=
  if address > 127 ∨ pc > 255 ∨ rf > 255 then .refused .initOperandOutOfRange
  else
    andThen
      (opTransaction (controlByte .command :: initBody s.cfg (BitVec.ofNat 8 pc) (BitVec.ofNat 8 rf))
        (s.setAddr (some (BitVec.ofNat 7 address))))
      fun t => .next (t.fbStore 0 (List.replicate fbSize 0#8)).markAll

/-- `initialize(address, preChargePeriod, refreshFrequency)` (R119). -/
def execInitializePanel (address pc rf : Nat) (s : State) : Out :=
  callPublic (.initializePanel address pc rf) (initializeBody address pc rf) s

/-- `setPower(on)` (R120). -/
def execSetPower (on : Bool) (s : State) : Out :=
  callPublic (.setPower on) (opSendCommand (powerByte on)) s

/-- `setContrast(value)` (R121). -/
def execSetContrast (value : Byte) (s : State) : Out :=
  callPublic (.setContrast value) (opSendCommand2 contrastOpcode value) s

end Sys2Proof.Machine
end

