-- ==== Sys2Proof/Machine/FlushEngine.lean ====
section
/-!
DEFINITION. The flush engine (spec/44_flush.md R150 to R157): the page walk, in increasing page order, with the page's
dirty indicator by `GRANULARITY`.
-/

namespace Sys2Proof.Machine

/-- One page of the walk: when dirty, its position from column 0, its whole row, then it is clean (R150, R151). -/
def flushPage (p : Fin 8) (s : State) : Out :=
  if s.pageDirty p then
    andThen (opSetPosition 0 p.val s) fun t =>
      andThen (opWriteDataBlock (t.pageRow p.val) pageStride t) fun u => .next (u.cleanPage p)
  else .next s

/-- The walk over a list of pages. -/
def flushPages (ps : List (Fin 8)) (s : State) : Out :=
  match ps with
  | [] => .next s
  | p :: rest => andThen (flushPage p s) (flushPages rest)

/-- `flush()` (R150). -/
def execFlush (s : State) : Out :=
  callPublic .flush (requireInitialized (flushPages pages)) s

/-- `flush()` of the fine variant (R151). -/
def execFlushByte (s : State) : Out :=
  callPublic .flushByte (requireInitialized (flushPages pages)) s

end Sys2Proof.Machine
end

