-- ==== Sys2Proof/Machine/Framebuffer.lean ====
section
/-!
DEFINITION. The framebuffer operations (spec/43_framebuffer.md R135 to R142) and the immediate path inside `setPixel`
(44_flush.md R152).
-/

namespace Sys2Proof.Machine

/-- The sending step of immediate mode for the byte of pixel `(x, y)`: when that byte is dirty, its position, its one data
byte, then its shadow (R152). -/
def sendPixelByte (x y : Nat) (s : State) : Out :=
  if s.shadowDirty (indexOf x y) then
    andThen (opSetPosition x (pageOf y) s) fun t =>
      andThen (opWriteDataBlock [t.fbByte (indexOf x y)] 1 t) fun u =>
        .next (u.setShadow (knownWrite u.shadow (indexOf x y) [u.fbByte (indexOf x y)]))
  else .next s

/-- The line `if FLUSH_MODE = immediate then` of `setPixel` (R136, R137): in immediate mode the sending step, in batched mode
nothing (R152). -/
def sendingStep (x y : Nat) (s : State) : Out :=
  match s.cfg.variant.flushMode with
  | .batched => .next s
  | .immediate => sendPixelByte x y s

/-- The bit update and the dirty marking of `setPixel` (R136, R137). -/
def State.paintPixel (s : State) (x y : Nat) (color : Bool) : State :=
  (s.fbStore (indexOf x y) [paint (s.fbByte (indexOf x y)) y color]).markPages (pageOf y) (pageOf y)

/-- The body of `setPixel`, in this instance's configuration: the range check, the bit, the marking, the sending step when
`FLUSH_MODE = immediate`, the status (R136, R137, R152, R174). -/
def setPixelBody (x y : Int) (color : Bool) (s : State) : Out :=
  if inBitmap x y then
    andThen (sendingStep x.toNat y.toNat (s.paintPixel x.toNat y.toNat color)) (returnStatus .ok)
  else returnStatus .outOfRange s

/-- `setPixel(x, y, color)` (R136). -/
def execSetPixel (x y : Int) (color : Bool) (s : State) : Out :=
  callPublic (.setPixel x y color) (requireInitialized (setPixelBody x y color)) s

/-- `setPixel(x, y, color)` of the fine variant (R137). -/
def execSetPixelByte (x y : Int) (color : Bool) (s : State) : Out :=
  callPublic (.setPixelByte x y color) (requireInitialized (setPixelBody x y color)) s

/-- The row of the table that is the sending step inside `setPixel` (R152): that step of an instance in immediate mode,
internal, with no status of its own. DESIGN CHOICE (log entry 11): performed by itself in batched mode, where `setPixel` has
no such step, or outside the bitmap, which "returns before reaching this step and sends nothing", it does nothing. -/
def execSetPixelImmediate (x y : Int) (s : State) : Out :=
  if inBitmap x y then sendingStep x.toNat y.toNat s else .next s

/-- `pixel(x, y)`, the observation (R135). Outside the bitmap it "is undefined", and before the first `initialize` the
framebuffer is unspecified (R25): there the bit is a free value. -/
def execPixel (x y : Int) (s : State) : Out :=
  if inBitmap x y && s.addr.isSome then .next (s.setResult (.pixel (s.pixelBit x.toNat y.toNat)))
  else .next (s.setResult (.pixel (Config.freeBit s.draws))).countDraw

/-- The body of `fill` (R138). -/
def fillBody (value : Byte) (s : State) : Out :=
  .next (s.fbStore 0 (List.replicate fbSize value)).markAll

/-- `fill(value)` (R138). -/
def execFill (value : Byte) (s : State) : Out :=
  callPublic (.fill value) (requireInitialized (fillBody value)) s

/-- The effective offset of `loadBlock`: rounded down to the page in the coarse variant; in the fine one an unaligned
offset has none (R35, R139, C6). -/
def effectiveOffset (g : Granularity) (byteOffset : Nat) : Option Nat :=
  match g with
  | .page => some (byteOffset - byteOffset % pageStride)
  | .byte => if byteOffset % pageStride = 0 then some byteOffset else none

/-- The copy and the marking of `loadBlock` for `count` bytes at the effective offset: every page that receives a byte is
marked (R139). -/
def State.loadAt (s : State) (buffer : List Byte) (count eff : Nat) : State :=
  if count = 0 then s
  else (s.fbStore eff (buffer.take count)).markPages (eff / pageStride) ((eff + count - 1) / pageStride)

/-- The body of `loadBlock` (R139); a short buffer is refused (R23). DESIGN CHOICE (log entry 24): it is tested after the checks
of R139's pseudocode. -/
def loadBlockBody (buffer : List Byte) (byteCount byteOffset : Int) (s : State) : Out :=
  if byteCount < 0 ∨ byteOffset < 0 then .refused .loadBlockNegative
  else
    match effectiveOffset s.cfg.variant.granularity byteOffset.toNat with
    | none => .refused .loadBlockUnaligned
    | some eff =>
      if eff + byteCount.toNat > fbSize then .refused .loadBlockOutOfRange
      else if buffer.length < byteCount.toNat then .refused .bufferTooShort
      else .next (s.loadAt buffer byteCount.toNat eff)

/-- `loadBlock(buffer, byteCount, byteOffset)` (R139). -/
def execLoadBlock (buffer : List Byte) (byteCount byteOffset : Int) (s : State) : Out :=
  callPublic (.loadBlock buffer byteCount byteOffset) (requireInitialized (loadBlockBody buffer byteCount byteOffset)) s

end Sys2Proof.Machine
end

