-- ==== Sys2Proof/Machine/PinPrimitives.lean ====
section
/-!
DEFINITION. The nine pin primitives (spec/40_pin_primitives.md R80 to R92): one primitive, one event.
-/

namespace Sys2Proof.Machine

/-- `SDA.setHigh()` (R81). -/
def execSdaSetHigh (s : State) : Out := .next (s.perform [.sdaHigh])

/-- `SDA.setLow()` (R82). -/
def execSdaSetLow (s : State) : Out := .next (s.perform [.sdaLow])

/-- `SDA.setDirectionOutput()` (R83). -/
def execSdaSetDirectionOutput (s : State) : Out := .next (s.perform [.sdaOut])

/-- `SDA.setDirectionInput()` (R84). -/
def execSdaSetDirectionInput (s : State) : Out := .next (s.perform [.sdaIn])

/-- `SCL.setHigh()` (R85). -/
def execSclSetHigh (s : State) : Out := .next (s.perform [.sclHigh])

/-- `SCL.setLow()` (R86). -/
def execSclSetLow (s : State) : Out := .next (s.perform [.sclLow])

/-- `SCL.setDirectionOutput()` (R87). -/
def execSclSetDirectionOutput (s : State) : Out := .next (s.perform [.sclOut])

/-- `SCL.setDirectionInput()` (R88). -/
def execSclSetDirectionInput (s : State) : Out := .next (s.perform [.sclIn])

/-- `precisionDelay(us)` (R89, R92). -/
def execPrecisionDelay (us : Nat) (s : State) : Out := .next (s.perform [.delay us])

end Sys2Proof.Machine
end

