-- ==== Sys2Proof/Machine/Transport.lean ====
section
/-!
DEFINITION. The bus transport (spec/41_bus_transport.md R95 to R110).
-/

namespace Sys2Proof.Machine

/-- `clockBit(b)` (R95). -/
def execClockBit (b : Bool) (s : State) : Out := .next (s.perform (bitCell s.delay b))

/-- `ackSlot()`, by `ACK_SDA_MODE` (R96). -/
def execAckSlot (s : State) : Out := .next (s.perform (ackCell s.cfg.ackMode s.delay))

/-- `byteOut(v)` (R97). -/
def execByteOut (v : Byte) (s : State) : Out := .next (s.perform (byteWave s.cfg.ackMode s.delay v))

/-- `begin(deviceAddress)` (R98). -/
def execBeginFrame (deviceAddress : BitVec 7) (s : State) : Out := opBegin deviceAddress s

/-- `writeBytes(buffer, length)` (R99). -/
def execWriteBytes (buffer : List Byte) (length : Nat) (s : State) : Out := opWriteBytes buffer length s

/-- `end()` (R100). -/
def execEndFrame (s : State) : Out := opEnd s

/-- `transaction(bytes)` (R106; outside its domain log entry 23). -/
def execTransaction (bytes : List Byte) (s : State) : Out := opTransaction bytes s

end Sys2Proof.Machine
end

