-- ==== Sys2Proof/Machine/WireFormats.lean ====
section
/-!
DEFINITION. The wire formats (spec/30_encoding.md R51 to R74): executing one is the block putting it on its pins. A cell is
its events; a byte or command is its byte cells, which the observer and the panel read by the position they come in; a
frame is one bus transaction. Log entries 9 and 22.
-/

namespace Sys2Proof.Machine

/-! ### Cells -/

/-- BIT1: `D+ w C+ w C-` (R51). -/
def execBit1 (s : State) : Out := .next (s.perform (bitCell s.delay true))

/-- BIT0: `D- w C+ w C-` (R51). -/
def execBit0 (s : State) : Out := .next (s.perform (bitCell s.delay false))

/-- ACK.release: `Di w C+ w C- Do` (R52). -/
def execAckRelease (s : State) : Out := .next (s.perform (ackCell .release s.delay))

/-- ACK.drive_low: `D- w C+ w C-` (R52). -/
def execAckDriveLow (s : State) : Out := .next (s.perform (ackCell .driveLow s.delay))

/-- ACK.hold_last: `w C+ w C-` (R52). -/
def execAckHoldLast (s : State) : Out := .next (s.perform (ackCell .holdLast s.delay))

/-- START (R54). -/
def execStartCell (s : State) : Out := .next (s.perform (startWave s.delay))

/-- STOP (R55). -/
def execStopCell (s : State) : Out := .next (s.perform (stopWave s.delay))

/-! ### Byte and frame -/

/-- BYTE: eight bit cells and an ACK cell (R53). -/
def execByteCells (v : Byte) (s : State) : Out := .next (s.sendBytes [v])

/-- FRAME: START, the address byte, the control byte, the payload, STOP (R56). -/
def execFrame (addr : BitVec 7) (ctl : Control) (payload : List Byte) (s : State) : Out :=
  opFrame addr (controlByte ctl :: payload) s

/-! ### Bytes of a frame and commands -/

/-- ADDR_BYTE: the address with the write bit (R57). -/
def execAddrByte (a : BitVec 7) (s : State) : Out := .next (s.sendBytes [addressByte a])

/-- CTRL_CMD: `0x00` (R58). -/
def execCtrlCmd (s : State) : Out := .next (s.sendBytes [controlByte .command])

/-- CTRL_DATA: `0x40` (R58). -/
def execCtrlData (s : State) : Out := .next (s.sendBytes [controlByte .data])

/-- DISPLAY_OFF: `0xAE` (R59). -/
def execDisplayOff (s : State) : Out := .next (s.sendBytes [displayOffByte])

/-- DISPLAY_ON: `0xAF` (R60). -/
def execDisplayOn (s : State) : Out := .next (s.sendBytes [displayOnByte])

/-- SET_CONTRAST: `0x81` and the value (R61). -/
def execCmdContrast (v : Byte) (s : State) : Out := .next (s.sendBytes [contrastOpcode, v])

/-- SET_PAGE: `0xB0 | page` (R62). -/
def execSetPage (p : BitVec 3) (s : State) : Out := .next (s.sendBytes [pageByte p.toNat])

/-- SET_COL_LOW (R63). -/
def execSetColLow (l : BitVec 4) (s : State) : Out := .next (s.sendBytes [lowNibbleByte l])

/-- SET_COL_HIGH (R64). -/
def execSetColHigh (h : BitVec 4) (s : State) : Out := .next (s.sendBytes [highNibbleByte h])

/-- POSITION_TRIPLET: page, column low, column high (R65). -/
def execPositionTriplet (p : BitVec 3) (l h : BitVec 4) (s : State) : Out :=
  .next (s.sendBytes [pageByte p.toNat, lowNibbleByte l, highNibbleByte h])

/-- DATA_BYTE (R66). -/
def execDataByte (d : Byte) (s : State) : Out := .next (s.sendBytes [d])

/-! ### The items of the initialisation sequence (R68) -/

/-- Item 1, display-off. -/
def execInitDisplayOff (s : State) : Out := .next (s.sendBytes [displayOffByte])

/-- Item 2, multiplex-ratio. -/
def execInitMuxRatio (s : State) : Out := .next (s.sendBytes (itemMuxRatio s.cfg))

/-- Item 3, display-offset. -/
def execInitDisplayOffset (s : State) : Out := .next (s.sendBytes (itemDisplayOffset s.cfg))

/-- Item 4, display-clock-divide. -/
def execInitClockDivide (f : Byte) (s : State) : Out := .next (s.sendBytes (itemClockDivide s.cfg f))

/-- Item 5, the charge-pump-enable sequence. -/
def execInitChargePumpEnableSeq (s : State) : Out := .next (s.sendBytes s.cfg.seqCpEn)

/-- Item 6, segment/COM remap. -/
def execInitSegComRemap (s : State) : Out := .next (s.sendBytes s.cfg.seqRemap)

/-- Item 7, charge-pump. -/
def execInitChargePump (s : State) : Out := .next (s.sendBytes (itemChargePump s.cfg))

/-- Item 8, display-on. -/
def execInitDisplayOn (s : State) : Out := .next (s.sendBytes [displayOnByte])

/-- Item 9, horizontal-addressing-mode. -/
def execInitAddressingMode (s : State) : Out := .next (s.sendBytes (itemAddressingMode s.cfg))

/-- Item 10, pre-charge-period. -/
def execInitPrecharge (p : Byte) (s : State) : Out := .next (s.sendBytes (itemPrecharge s.cfg p))

/-- Item 11, deselect-level. -/
def execInitVcomhDeselect (s : State) : Out := .next (s.sendBytes (itemVcomhDeselect s.cfg))

/-! ### Frame shapes (R74) -/

/-- FRAME_COMMAND1: `a 00 c`. -/
def execFrameCommand1 (c : Byte) (s : State) : Out := opTransaction [controlByte .command, c] s

/-- FRAME_COMMAND2: `a 00 c1 c2`. -/
def execFrameCommand2 (c1 c2 : Byte) (s : State) : Out := opTransaction [controlByte .command, c1, c2] s

/-- FRAME_POSITION: `a 00 B0|page 0L 1H`. -/
def execFramePosition (page : BitVec 3) (column : BitVec 7) (s : State) : Out :=
  opTransaction (controlByte .command :: positionBytes column.toNat page.toNat) s

/-- FRAME_DATA: `a 40 d_0 … d_(n-1)`. -/
def execFrameData (ds : List Byte) (s : State) : Out := opTransaction (controlByte .data :: ds) s

/-- FRAME_INIT: `a 00 INIT_BODY(pc, rf)`. -/
def execFrameInit (pc rf : Byte) (s : State) : Out :=
  opTransaction (controlByte .command :: initBody s.cfg pc rf) s

end Sys2Proof.Machine
end

