-- ==== Sys2Proof/Machine/Dispatch.lean ====
section
/-!
DEFINITION. One arm per row of spec/opcode_table.json, in the table's order.
-/

namespace Sys2Proof.Machine

def exec (i : Instr) (s : State) : Host.Outcome State Fault Refusal :=
  match i with
  | .bit1 => Sys2Proof.Machine.execBit1 s
  | .bit0 => Sys2Proof.Machine.execBit0 s
  | .ackRelease => Sys2Proof.Machine.execAckRelease s
  | .ackDriveLow => Sys2Proof.Machine.execAckDriveLow s
  | .ackHoldLast => Sys2Proof.Machine.execAckHoldLast s
  | .startCell => Sys2Proof.Machine.execStartCell s
  | .stopCell => Sys2Proof.Machine.execStopCell s
  | .byteCells v => Sys2Proof.Machine.execByteCells v s
  | .frame addr ctl payload => Sys2Proof.Machine.execFrame addr ctl payload s
  | .addrByte a => Sys2Proof.Machine.execAddrByte a s
  | .ctrlCmd => Sys2Proof.Machine.execCtrlCmd s
  | .ctrlData => Sys2Proof.Machine.execCtrlData s
  | .displayOff => Sys2Proof.Machine.execDisplayOff s
  | .displayOn => Sys2Proof.Machine.execDisplayOn s
  | .cmdContrast v => Sys2Proof.Machine.execCmdContrast v s
  | .setPage p => Sys2Proof.Machine.execSetPage p s
  | .setColLow l => Sys2Proof.Machine.execSetColLow l s
  | .setColHigh h => Sys2Proof.Machine.execSetColHigh h s
  | .positionTriplet p l h => Sys2Proof.Machine.execPositionTriplet p l h s
  | .dataByte d => Sys2Proof.Machine.execDataByte d s
  | .initDisplayOff => Sys2Proof.Machine.execInitDisplayOff s
  | .initMuxRatio => Sys2Proof.Machine.execInitMuxRatio s
  | .initDisplayOffset => Sys2Proof.Machine.execInitDisplayOffset s
  | .initClockDivide f => Sys2Proof.Machine.execInitClockDivide f s
  | .initChargePumpEnableSeq => Sys2Proof.Machine.execInitChargePumpEnableSeq s
  | .initSegComRemap => Sys2Proof.Machine.execInitSegComRemap s
  | .initChargePump => Sys2Proof.Machine.execInitChargePump s
  | .initDisplayOn => Sys2Proof.Machine.execInitDisplayOn s
  | .initAddressingMode => Sys2Proof.Machine.execInitAddressingMode s
  | .initPrecharge p => Sys2Proof.Machine.execInitPrecharge p s
  | .initVcomhDeselect => Sys2Proof.Machine.execInitVcomhDeselect s
  | .frameCommand1 c => Sys2Proof.Machine.execFrameCommand1 c s
  | .frameCommand2 c1 c2 => Sys2Proof.Machine.execFrameCommand2 c1 c2 s
  | .framePosition page column => Sys2Proof.Machine.execFramePosition page column s
  | .frameData ds => Sys2Proof.Machine.execFrameData ds s
  | .frameInit pc rf => Sys2Proof.Machine.execFrameInit pc rf s
  | .sdaSetHigh => Sys2Proof.Machine.execSdaSetHigh s
  | .sdaSetLow => Sys2Proof.Machine.execSdaSetLow s
  | .sdaSetDirectionOutput => Sys2Proof.Machine.execSdaSetDirectionOutput s
  | .sdaSetDirectionInput => Sys2Proof.Machine.execSdaSetDirectionInput s
  | .sclSetHigh => Sys2Proof.Machine.execSclSetHigh s
  | .sclSetLow => Sys2Proof.Machine.execSclSetLow s
  | .sclSetDirectionOutput => Sys2Proof.Machine.execSclSetDirectionOutput s
  | .sclSetDirectionInput => Sys2Proof.Machine.execSclSetDirectionInput s
  | .precisionDelay us => Sys2Proof.Machine.execPrecisionDelay us s
  | .clockBit b => Sys2Proof.Machine.execClockBit b s
  | .ackSlot => Sys2Proof.Machine.execAckSlot s
  | .byteOut v => Sys2Proof.Machine.execByteOut v s
  | .beginFrame deviceAddress => Sys2Proof.Machine.execBeginFrame deviceAddress s
  | .writeBytes buffer length => Sys2Proof.Machine.execWriteBytes buffer length s
  | .endFrame => Sys2Proof.Machine.execEndFrame s
  | .transaction bytes => Sys2Proof.Machine.execTransaction bytes s
  | .sendCommand c => Sys2Proof.Machine.execSendCommand c s
  | .sendCommand2 c1 c2 => Sys2Proof.Machine.execSendCommand2 c1 c2 s
  | .setPosition column page => Sys2Proof.Machine.execSetPosition column page s
  | .writeDataBlock buffer length => Sys2Proof.Machine.execWriteDataBlock buffer length s
  | .initializePanel address preChargePeriod refreshFrequency => Sys2Proof.Machine.execInitializePanel address preChargePeriod refreshFrequency s
  | .setPower on => Sys2Proof.Machine.execSetPower on s
  | .setContrast value => Sys2Proof.Machine.execSetContrast value s
  | .pixel x y => Sys2Proof.Machine.execPixel x y s
  | .setPixel x y color => Sys2Proof.Machine.execSetPixel x y color s
  | .setPixelByte x y color => Sys2Proof.Machine.execSetPixelByte x y color s
  | .setPixelImmediate x y => Sys2Proof.Machine.execSetPixelImmediate x y s
  | .fill value => Sys2Proof.Machine.execFill value s
  | .loadBlock buffer byteCount byteOffset => Sys2Proof.Machine.execLoadBlock buffer byteCount byteOffset s
  | .flush => Sys2Proof.Machine.execFlush s
  | .flushByte => Sys2Proof.Machine.execFlushByte s

end Sys2Proof.Machine
end

