-- ==== Sys2Proof/Machine/Step.lean ====
section
/-!
DEFINITION. One step of the machine: the caller's next request, run to completion (spec/10_state.md R17, 20_memory.md
R41). There is no instruction memory (R30); log entry 7 says how a program comes to run.
-/

namespace Sys2Proof.Machine

/-- One step: with nothing asked for the block is idle and nothing changes (R183); otherwise the request at the head is
taken off the queue and its operation runs (R17, R41). -/
def step (s : State) : Host.Outcome State Fault Refusal :=
  match s.requests with
  | [] => .next s
  | r :: rest =>
    match r.instr with
    | none => .refused .undecodable
    | some i => exec i (s.setRequests rest)

/-- `s` with a table word as the request that the next step takes (log entry 7). -/
def State.withFetchWord (s : State) (nbits w : Nat) : State :=
  s.setRequests (.word (wordBytes nbits w) :: s.requests)

end Sys2Proof.Machine
end

