-- ==== Sys2Proof/Machine/Expansion.lean ====
section
/-!
DEFINITION. The expansion of an operation: "the finite list that the rules … give for those operands and the state at the
call" (spec/10_state.md R17, R26), written from the operands and the state alone, beside the meanings; and the small step,
one primitive at a time (R17, R90). `exec` takes the big step; that the two agree is a statement.
-/

namespace Sys2Proof.Machine

/-- The small step: one pin primitive (R90). -/
def State.tick (s : State) (e : Event) : State := s.perform [e]

/-- One frame to `x[ADDR]` (R106). -/
def State.frameEvents (s : State) (bs : List Byte) : List Event :=
  match s.addr with
  | none => []
  | some a => frameWave s.cfg.ackMode s.delay a bs

/-- A position frame (R117). -/
def State.positionEvents (s : State) (column page : Nat) : List Event :=
  s.frameEvents (controlByte .command :: positionBytes column page)

/-- A data frame (R118). -/
def State.dataEvents (s : State) (bs : List Byte) : List Event :=
  s.frameEvents (controlByte .data :: bs)

/-- What a flush sends for one page: nothing when clean, a position frame and a data frame when dirty (R150, R151). -/
def State.pageEvents (s : State) (p : Fin 8) : List Event :=
  if s.pageDirty p then s.positionEvents 0 p.val ++ s.dataEvents (s.pageRow p.val) else []

/-- What a flush sends: the dirty pages in increasing order (R150, R153). -/
def State.flushEvents (s : State) : List Event := pages.flatMap s.pageEvents

/-- What the sending step of immediate mode sends (R152). -/
def State.pixelEvents (s : State) (x y : Nat) : List Event :=
  if s.shadowDirty (indexOf x y) then s.positionEvents x (pageOf y) ++ s.dataEvents [s.fbByte (indexOf x y)] else []

/-- What the sending step sends inside the bitmap, in this instance's flush mode (R152). -/
def State.stepEvents (s : State) (x y : Int) : List Event :=
  match s.cfg.variant.flushMode with
  | .batched => []
  | .immediate => if inBitmap x y then s.pixelEvents x.toNat y.toNat else []

/-- What a `setPixel` sends (R136, R137, R152, R202). -/
def State.setPixelEvents (s : State) (x y : Int) (color : Bool) : List Event :=
  match s.cfg.variant.flushMode with
  | .batched => []
  | .immediate =>
    if inBitmap x y then (s.paintPixel x.toNat y.toNat color).pixelEvents x.toNat y.toNat else []

/-- The expansion of an operation at a state, for a call that is not refused (R17). -/
def expansion (i : Instr) (s : State) : List Event :=
  match i with
  | .bit1 => bitCell s.delay true
  | .bit0 => bitCell s.delay false
  | .ackRelease => ackCell .release s.delay
  | .ackDriveLow => ackCell .driveLow s.delay
  | .ackHoldLast => ackCell .holdLast s.delay
  | .startCell => startWave s.delay
  | .stopCell => stopWave s.delay
  | .byteCells v => s.bytesEvents [v]
  | .frame a ctl payload => frameWave s.cfg.ackMode s.delay a (controlByte ctl :: payload)
  | .addrByte a => s.bytesEvents [addressByte a]
  | .ctrlCmd => s.bytesEvents [0x00#8]
  | .ctrlData => s.bytesEvents [0x40#8]
  | .displayOff => s.bytesEvents [0xAE#8]
  | .displayOn => s.bytesEvents [0xAF#8]
  | .cmdContrast v => s.bytesEvents [0x81#8, v]
  | .setPage p => s.bytesEvents [pageByte p.toNat]
  | .setColLow l => s.bytesEvents [lowNibbleByte l]
  | .setColHigh h => s.bytesEvents [highNibbleByte h]
  | .positionTriplet p l h => s.bytesEvents [pageByte p.toNat, lowNibbleByte l, highNibbleByte h]
  | .dataByte d => s.bytesEvents [d]
  | .initDisplayOff => s.bytesEvents [0xAE#8]
  | .initMuxRatio => s.bytesEvents [s.cfg.opcMux, 0x3F#8]
  | .initDisplayOffset => s.bytesEvents [s.cfg.opcOffset, 0x00#8]
  | .initClockDivide f => s.bytesEvents [s.cfg.opcClkDiv, f]
  | .initChargePumpEnableSeq => s.bytesEvents s.cfg.seqCpEn
  | .initSegComRemap => s.bytesEvents s.cfg.seqRemap
  | .initChargePump => s.bytesEvents [s.cfg.opcChgPump, 0x14#8]
  | .initDisplayOn => s.bytesEvents [0xAF#8]
  | .initAddressingMode => s.bytesEvents [s.cfg.opcAddrMode, s.cfg.modeHorizontal]
  | .initPrecharge p => s.bytesEvents [s.cfg.opcPrechg, p]
  | .initVcomhDeselect => s.bytesEvents [s.cfg.opcVcomh, s.cfg.minBrightness]
  | .frameCommand1 c => s.frameEvents [0x00#8, c]
  | .frameCommand2 c1 c2 => s.frameEvents [0x00#8, c1, c2]
  | .framePosition p col => s.positionEvents col.toNat p.toNat
  | .frameData ds => s.dataEvents ds
  | .frameInit pc rf => s.frameEvents (0x00#8 :: initBody s.cfg pc rf)
  | .sdaSetHigh => [.sdaHigh]
  | .sdaSetLow => [.sdaLow]
  | .sdaSetDirectionOutput => [.sdaOut]
  | .sdaSetDirectionInput => [.sdaIn]
  | .sclSetHigh => [.sclHigh]
  | .sclSetLow => [.sclLow]
  | .sclSetDirectionOutput => [.sclOut]
  | .sclSetDirectionInput => [.sclIn]
  | .precisionDelay us => [.delay us]
  | .clockBit b => bitCell s.delay b
  | .ackSlot => ackCell s.cfg.ackMode s.delay
  | .byteOut v => s.bytesEvents [v]
  | .beginFrame a => startWave s.delay ++ s.bytesEvents [addressByte a]
  | .writeBytes buffer length => s.bytesEvents (buffer.take length)
  | .endFrame => stopWave s.delay
  | .transaction bytes => s.frameEvents bytes
  | .sendCommand c => s.frameEvents [0x00#8, c]
  | .sendCommand2 c1 c2 => s.frameEvents [0x00#8, c1, c2]
  | .setPosition column page => s.positionEvents column.toNat page.toNat
  | .writeDataBlock buffer length => s.dataEvents (buffer.take length)
  | .initializePanel address pc rf =>
      frameWave s.cfg.ackMode s.delay (BitVec.ofNat 7 address)
        (0x00#8 :: initBody s.cfg (BitVec.ofNat 8 pc) (BitVec.ofNat 8 rf))
  | .setPower on => s.frameEvents [0x00#8, if on then 0xAF#8 else 0xAE#8]
  | .setContrast value => s.frameEvents [0x00#8, 0x81#8, value]
  | .pixel _ _ => []
  | .setPixel x y color => s.setPixelEvents x y color
  | .setPixelByte x y color => s.setPixelEvents x y color
  | .setPixelImmediate x y => s.stepEvents x y
  | .fill _ => []
  | .loadBlock _ _ _ => []
  | .flush => s.flushEvents
  | .flushByte => s.flushEvents

end Sys2Proof.Machine
end

