-- ==== Sys2Proof/Safety.lean ====
section
/-!
DEFINITION. What claims are stated in: the premises of spec/70_reset_and_hazards.md R206, the invariants of 10_state.md
R24 and 20_memory.md R43, and the observations of 41_bus_transport.md R107.
-/

namespace Sys2Proof.Machine

/-- `INITIALISED` (R206): an `initialize` has returned, so `ADDR` is set. -/
def State.Initialised (s : State) : Prop := ∃ a, s.addr = some a

/-- `IDLE` (R206): no frame open and no operation running. -/
def State.Idle (s : State) : Prop := s.busOpen = false ∧ s.seq = .idle

/-- Both lines are released (R24 (iii)). -/
def State.Released (s : State) : Prop := s.pins.sda.dir = .input ∧ s.pins.scl.dir = .input

/-- Inside a frame: both lines driven, the clock low (R95's precondition). -/
def Pins.Clocking (p : Pins) : Prop := p.sda.dir = .output ∧ p.scl = { latch := .low, dir := .output }

/-- Between two public operations (R24): idle, released, and the observer has no frame open. -/
def State.Settled (s : State) : Prop := s.Idle ∧ s.Released ∧ s.rx.active = false

/-- The memories are in canonical form (R18, R20, R180). -/
def State.Canonical (s : State) : Prop :=
  Memory.wf s.fb = true ∧ Memory.wfKnown s.shadow = true ∧ Memory.wfKnown s.panel.gram = true

/-- Nothing is in the framebuffer or the shadow before the first `initialize` (R191). -/
def State.BlankUntilInitialised (s : State) : Prop := s.addr = none → s.fb = [] ∧ s.shadow = []

/-- The observer's group never holds more than eight bits (R73: the ninth ends it). -/
def State.GroupBounded (s : State) : Prop := s.rx.count ≤ 8

/-- The invariant every step keeps. -/
def State.Inv (s : State) : Prop :=
  s.Canonical ∧ s.BlankUntilInitialised ∧ s.GroupBounded ∧ s.seq = .idle

/-- The line cells, the observer and the panel are what `TRACE` makes of the constructed ones (R11, R12, R22, R73,
R180). -/
def State.Replayed (s : State) : Prop :=
  s.pins = State.reset.pins.applyAll s.trace
    ∧ s.rx = State.reset.rx.after State.reset.pins s.trace
    ∧ s.panel = (State.reset.rx.frames State.reset.pins s.trace).foldl (Panel.receive s.cfg) State.reset.panel

/-- Byte `i` on the far side is the framebuffer's (R158). -/
def State.onPanel (s : State) (i : Nat) : Prop := s.panel.gram.lookup i = some (s.fbByte i)

/-- The far side is in step with the indicators, when frames go to the panel: in the coarse variant a byte of a clean page is
on the panel; in the fine one a known shadow entry is what the panel holds (R19, R20, R43). -/
def State.Synced (s : State) : Prop :=
  s.addr = some s.panel.address →
    match s.cfg.variant.granularity with
    | .page => ∀ (p : Fin 8) (c : Nat), c < 128 → s.dirty[p] = false → s.onPanel (128 * p.val + c)
    | .byte => ∀ i v, s.shadowEntry i = some v → s.panel.gram.lookup i = some v

/-- The superset invariant against the reference receiver (R43): every byte that no dirty indicator covers is on the
panel. -/
def State.Superset (s : State) : Prop :=
  s.addr = some s.panel.address → ∀ i, i < fbSize → s.covered i = false → s.onPanel i

/-- Every dirty indicator is clear (R44). -/
def State.AllClean (s : State) : Prop := ∀ p : Fin 8, s.pageDirty p = false

/-- The row of the opcode table that is `flush()` for this instance: R150's with `GRANULARITY = page`, R151's with `byte`. -/
def State.flushRow (s : State) : Instr :=
  match s.cfg.variant.granularity with
  | .page => .flush
  | .byte => .flushByte

/-- The row that is `setPixel(x, y, color)` for this instance: R136's with `GRANULARITY = page`, R137's with `byte`. -/
def State.setPixelRow (s : State) (x y : Int) (color : Bool) : Instr :=
  match s.cfg.variant.granularity with
  | .page => .setPixel x y color
  | .byte => .setPixelByte x y color

/-- The caller has asked for public operations only (R177). -/
def State.CallerLegal (s : State) : Prop := ∀ r ∈ s.requests, ∃ i, r = .call i ∧ i.isPublic = true

/-- `t` is `s` with a list of events performed, as far as pins, `TRACE`, observer and panel go (R22, R73, R90, R180). -/
def State.Emits (s t : State) (es : List Event) : Prop :=
  t.trace = s.trace ++ es ∧ t.pins = s.pins.applyAll es ∧ t.rx = s.rx.after s.pins es ∧ t.panel = s.panelAfter es

/-- `t` has every register, indicator and byte of `s` that no pin event touches: configuration, `ADDR`, `DELAY`, `FB` (byte
by byte too), `DIRTY`, `SHADOW`, and the model's own fields. -/
def State.KeepsStore (s t : State) : Prop :=
  t.cfg = s.cfg ∧ t.addr = s.addr ∧ t.delay = s.delay ∧ t.fb = s.fb ∧ (∀ i, t.fbByte i = s.fbByte i)
    ∧ t.dirty = s.dirty ∧ t.shadow = s.shadow ∧ t.requests = s.requests ∧ t.result = s.result ∧ t.draws = s.draws

/-- `t` has the pins, `TRACE`, observer, panel, `BUS_OPEN` and `SEQ` of `s`, and its configuration, `ADDR`, `DELAY` and
requests: nothing was sent. -/
def State.KeepsWire (s t : State) : Prop :=
  t.cfg = s.cfg ∧ t.addr = s.addr ∧ t.delay = s.delay ∧ t.requests = s.requests ∧ t.pins = s.pins
    ∧ t.trace = s.trace ∧ t.rx = s.rx ∧ t.panel = s.panel ∧ t.busOpen = s.busOpen ∧ t.seq = s.seq

/-- The instruction is one pin primitive: it answers, its event and its change of the pins are these, `SEQ` advances by one,
nothing else changes (R80 to R90). -/
def PinStep (i : Instr) (e : Event) (change : Pins → Pins) : Prop :=
  ∀ s : State, ∃ t, exec i s = .next t ∧ t.pins = change s.pins ∧ s.Emits t [e] ∧ t.seq = s.seq.advance 1
    ∧ t.busOpen = s.busOpen ∧ s.KeepsStore t

/-- The instruction performs these events at every state (the half-bit delay given), and nothing else. -/
def PerformsEvents (i : Instr) (es : State → List Event) : Prop :=
  ∀ s : State, ∃ t, exec i s = .next t ∧ s.Emits t (es s) ∧ t.seq = s.seq.advance (es s).length
    ∧ t.busOpen = s.busOpen ∧ s.KeepsStore t

/-- The instruction clocks out these bytes at every state, and nothing else. -/
def ClocksOut (i : Instr) (bs : State → List Byte) : Prop :=
  PerformsEvents i fun s => bytesWave s.cfg.ackMode s.delay (bs s)

/-- The internal operation sends one frame of these bytes to `x[ADDR]`, whenever `ADDR` is set and no frame is open, and
nothing else: `BUS_OPEN` is false again and both lines are released, their latches high. -/
def SendsFrame (i : Instr) (bs : State → List Byte) : Prop :=
  ∀ (s : State) (a : BitVec 7), s.addr = some a → s.busOpen = false →
    ∃ t, exec i s = .next t ∧ s.Emits t (frameWave s.cfg.ackMode s.delay a (bs s))
      ∧ t.seq = s.seq.advance (frameWave s.cfg.ackMode s.delay a (bs s)).length
      ∧ t.busOpen = false ∧ s.KeepsStore t
      ∧ t.pins = { sda := { latch := .high, dir := .input }, scl := { latch := .high, dir := .input } }

/-- The operation is refused by name while `ADDR` is unset, and with it set while a frame is open (R106, R123, R98). -/
def NeedsAddressAndClosedBus (i : Instr) : Prop :=
  ∀ s : State, (s.addr = none → exec i s = .refused .addressUnset)
    ∧ (s.addr ≠ none → s.busOpen = true → exec i s = .refused .beginWhileOpen)

/-- How many of a list of events have a property of the pins before and after (R107). -/
def countEdges (q : Pins → Pins → Bool) (p : Pins) : List Event → Nat
  | [] => 0
  | e :: es => (if q p (p.apply e) then 1 else 0) + countEdges q (p.apply e) es

/-- The data wire changes while the clock wire is high before and after (R107 (i)). -/
def dataMovesUnderClock (p p' : Pins) : Bool :=
  p.dataWire != p'.dataWire && p.clockWire == .high && p'.clockWire == .high

/-- An event is a delay (R92, R202). -/
def isDelay : Event → Bool
  | .delay _ => true
  | _ => false

/-- A trace with every delay event deleted: what pin-equality compares (R22). -/
def pinEvents (es : List Event) : List Event := es.filter fun e => !isDelay e

end Sys2Proof.Machine
end

