-- ==== Sys2Proof/Certificates/Slice0/Obligations.lean ====
section
/-!
DEFINITION. The statements for the provers, from the numbered rules of spec/. OBLIGATIONS.json lists them in this order.
-/

open Sys2Proof Sys2Proof.Machine

/-! ### Construction and the whole machine -/

/-- R152, R4: the configuration (`page`, `immediate`) is refused and the three other pairs are admitted, each as the instance
that has these selectors. R25: what construction leaves, the values it gives (the ones it leaves unspecified are the model's
and are not stated); R4: the default selectors. -/
def Obligations.ConstructionLeavesTheGivenValues : Prop :=
  (Variant.ofSelectors .page .immediate = none
      ∧ (∀ g m, ¬(g = .page ∧ m = .immediate) →
          ∃ v, Variant.ofSelectors g m = some v ∧ v.granularity = g ∧ v.flushMode = m)
      ∧ ∀ v : Variant, Variant.ofSelectors v.granularity v.flushMode = some v)
    ∧ State.reset.cfg.variant.granularity = .page ∧ State.reset.cfg.variant.flushMode = .batched
    ∧ State.reset.Released ∧ State.reset.addr = none ∧ State.reset.delay = Config.halfBitDelayUs
    ∧ State.reset.busOpen = false ∧ State.reset.seq = .idle ∧ (∀ i, State.reset.shadowEntry i = none)
    ∧ State.reset.trace = []

/-- The invariants hold at construction. That the model's `FB` lists nothing then is its choice (log entry 3: R25 leaves `FB`
unspecified), and so is the observer with no frame open (log entry 4). -/
def Obligations.InvariantsHoldAtConstruction : Prop :=
  State.reset.Inv ∧ State.reset.Replayed ∧ State.reset.Settled ∧ State.reset.Synced

/-- Every step keeps the canonical form of every memory, the blankness of the model's `FB` and `SHADOW` before `initialize`,
the observer's bound (R73) and the idle sequencer (R24 (ii)). The canonical list and the blank `FB` are the model's choice
(log entry 3: R25 leaves `FB` unspecified), and so is idleness after an internal row run by itself (log entry 13). -/
def Obligations.EveryStepKeepsTheInvariant : Prop :=
  ∀ s t : State, s.Inv → step s = .next t → t.Inv

/-- Every step keeps the line cells, the observer and the panel what `TRACE` makes of them: nothing but the pin primitives
writes them (R11, R12, R22), and what an observer sees follows from `TRACE` alone (R73, R180). -/
def Obligations.EveryStepKeepsTheReplay : Prop :=
  ∀ s t : State, s.Replayed → step s = .next t → t.Replayed

/-- R22: "nothing removes"; `TRACE` only grows, the construction arguments, `DELAY` (R15) and the panel's own address never
change, under every step from every state. -/
def Obligations.TraceGrowsAndConfigurationStays : Prop :=
  ∀ s t : State, step s = .next t →
    (∃ es, t.trace = s.trace ++ es) ∧ t.cfg = s.cfg ∧ t.delay = s.delay ∧ t.panel.address = s.panel.address

/-- R14: `ADDR` "is written only by `initialize(address, …)`, which latches its first operand". -/
def Obligations.AddrIsWrittenByInitializeOnly : Prop :=
  ∀ (i : Instr) (s t : State), exec i s = .next t →
    t.addr = s.addr ∨ ∃ address pc rf, i = .initializePanel address pc rf ∧ t.addr = some (BitVec.ofNat 7 address)

/-- R18: `FB` "is written only by `setPixel`, `fill`, `loadBlock` and `initialize`". -/
def Obligations.FramebufferIsWrittenByFourOperationsOnly : Prop :=
  ∀ (i : Instr) (s t : State), exec i s = .next t →
    t.fb = s.fb ∨ (∃ x y c, i = .setPixel x y c) ∨ (∃ x y c, i = .setPixelByte x y c) ∨ (∃ v, i = .fill v)
      ∨ (∃ b n o, i = .loadBlock b n o) ∨ (∃ a pc rf, i = .initializePanel a pc rf)

/-- R16: `BUS_OPEN` "is set by `begin`, cleared by `end`", and by nothing else across a whole operation. -/
def Obligations.BusOpenIsWrittenByBeginAndEndOnly : Prop :=
  ∀ (i : Instr) (s t : State), exec i s = .next t →
    t.busOpen = s.busOpen ∨ (∃ a, i = .beginFrame a ∧ s.busOpen = false ∧ t.busOpen = true)
      ∨ (i = .endFrame ∧ s.busOpen = true ∧ t.busOpen = false)

/-- R17, R90: the big step and the small step agree: an operation that answers leaves `TRACE`, the pins, the observer and
the panel as its expansion does, performed one primitive at a time. -/
def Obligations.BigStepAgreesWithItsExpansion : Prop :=
  ∀ (i : Instr) (s t : State), exec i s = .next t →
    let u := (expansion i s).foldl State.tick s
    t.trace = u.trace ∧ t.pins = u.pins ∧ t.rx = u.rx ∧ t.panel = u.panel ∧ u.trace = s.trace ++ expansion i s

/-- A step runs the request at the head of the queue to completion (R17, R41): an operation as it is, a table word as the
decoder reads it; bytes that are no word are refused; with no request the block is idle and nothing changes (R183). The
queue, the reading of table words and the refusal of undecodable bytes are the model's choice (log entries 7 and 8). -/
def Obligations.StepRunsTheNextRequest : Prop :=
  (∀ (s : State) (i : Instr) (rest : List Request), s.requests = .call i :: rest →
      step s = exec i { s with requests := rest })
    ∧ (∀ (s : State) (bs : List Byte) (i : Instr) (after : List Byte) (rest : List Request),
        s.requests = .word bs :: rest → decodeWord bs = .ok (i, after) → step s = exec i { s with requests := rest })
    ∧ (∀ (s : State) (bs : List Byte) (e : DecodeError) (rest : List Request),
        s.requests = .word bs :: rest → decodeWord bs = .error e → step s = .refused .undecodable)
    ∧ (∀ s : State, s.requests = [] → step s = .next s)

/-- R5, R177: the caller's door takes the seven public operations (`setPixel` and `flush` by either of their rows) and puts
them last in the queue; every other row is refused there: the pin primitives, the transport, the internal device commands,
`pixel`, and the sending step inside `setPixel`, named here, and the wire formats. That the boundary is a door of the model's
is log entry 14, the queue behind it log entry 7, the row of the sending step log entry 11. -/
def Obligations.TheDoorTakesPublicOperationsOnly : Prop :=
  let seven := fun i : Instr =>
    (∃ a pc rf, i = .initializePanel a pc rf) ∨ (∃ on, i = .setPower on) ∨ (∃ v, i = .setContrast v)
      ∨ (∃ x y c, i = .setPixel x y c) ∨ (∃ x y c, i = .setPixelByte x y c)
      ∨ (∃ v, i = .fill v) ∨ (∃ b n o, i = .loadBlock b n o) ∨ i = .flush ∨ i = .flushByte
  ∀ s : State,
    (∀ i, seven i → s.submit i = some { s with requests := s.requests ++ [.call i] })
      ∧ (∀ i, ¬seven i → s.submit i = none)
      ∧ (s.submit .sdaSetHigh = none ∧ s.submit .sdaSetLow = none ∧ s.submit .sdaSetDirectionOutput = none
        ∧ s.submit .sdaSetDirectionInput = none ∧ s.submit .sclSetHigh = none ∧ s.submit .sclSetLow = none
        ∧ s.submit .sclSetDirectionOutput = none ∧ s.submit .sclSetDirectionInput = none
        ∧ ∀ us, s.submit (.precisionDelay us) = none)
      ∧ ((∀ b, s.submit (.clockBit b) = none) ∧ s.submit .ackSlot = none ∧ (∀ v, s.submit (.byteOut v) = none)
        ∧ (∀ a, s.submit (.beginFrame a) = none) ∧ (∀ b n, s.submit (.writeBytes b n) = none)
        ∧ s.submit .endFrame = none ∧ ∀ bs, s.submit (.transaction bs) = none)
      ∧ ((∀ c, s.submit (.sendCommand c) = none) ∧ (∀ c1 c2, s.submit (.sendCommand2 c1 c2) = none)
        ∧ (∀ c p, s.submit (.setPosition c p) = none) ∧ ∀ b n, s.submit (.writeDataBlock b n) = none)
      ∧ ((∀ x y, s.submit (.pixel x y) = none) ∧ ∀ x y, s.submit (.setPixelImmediate x y) = none)
      ∧ ((∀ r ∈ s.requests, ∃ i, r = .call i ∧ seven i) →
          ∀ i t, s.submit i = some t → ∀ r ∈ t.requests, ∃ j, r = .call j ∧ seven j)

/-! ### Pin primitives -/

/-- R81 to R89: the eight line primitives, each one latch or one direction, latch and direction independent and the other
line untouched; and the delay, which changes no state other than `TRACE` (and `SEQ`, R90): neither pins nor observer nor
panel. A bit cell ends in `C-`, a frame in `Di Ci`. -/
def Obligations.PinPrimitives : Prop :=
  PinStep .sdaSetHigh .sdaHigh (fun p => { p with sda := { p.sda with latch := .high } })
    ∧ PinStep .sdaSetLow .sdaLow (fun p => { p with sda := { p.sda with latch := .low } })
    ∧ PinStep .sdaSetDirectionOutput .sdaOut (fun p => { p with sda := { p.sda with dir := .output } })
    ∧ PinStep .sdaSetDirectionInput .sdaIn (fun p => { p with sda := { p.sda with dir := .input } })
    ∧ PinStep .sclSetHigh .sclHigh (fun p => { p with scl := { p.scl with latch := .high } })
    ∧ PinStep .sclSetLow .sclLow (fun p => { p with scl := { p.scl with latch := .low } })
    ∧ PinStep .sclSetDirectionOutput .sclOut (fun p => { p with scl := { p.scl with dir := .output } })
    ∧ PinStep .sclSetDirectionInput .sclIn (fun p => { p with scl := { p.scl with dir := .input } })
    ∧ (∀ us, PinStep (.precisionDelay us) (.delay us) id)
    ∧ (∀ (us : Nat) (s t : State), exec (.precisionDelay us) s = .next t → t.rx = s.rx ∧ t.panel = s.panel)
    ∧ (∀ d b, (bitCell d b).getLast? = some .sclLow)
    ∧ ∀ mode d a bs, ∃ es, frameWave mode d a bs = es ++ [.sdaIn, .sclIn]

/-! ### Cells, bytes, frames -/

/-- R51, R54, R55, R95: the bit cells, START, STOP and `clockBit`, event by event. That the four rows run by themselves, at
every state, with `BUS_OPEN` neither checked nor changed, is the model's choice (log entry 9). -/
def Obligations.BitCellsStartAndStop : Prop :=
  PerformsEvents .bit1 (fun s => [.sdaHigh, .delay s.delay, .sclHigh, .delay s.delay, .sclLow])
    ∧ PerformsEvents .bit0 (fun s => [.sdaLow, .delay s.delay, .sclHigh, .delay s.delay, .sclLow])
    ∧ PerformsEvents .startCell (fun s =>
        [.sdaHigh, .sclHigh, .sdaOut, .sclOut, .delay s.delay, .sdaLow, .delay s.delay, .sclLow])
    ∧ PerformsEvents .stopCell (fun s =>
        [.sdaLow, .delay s.delay, .sclHigh, .delay s.delay, .sdaHigh, .sdaIn, .sclIn])
    ∧ ∀ b, PerformsEvents (.clockBit b) (fun s =>
        [if b then .sdaHigh else .sdaLow, .delay s.delay, .sclHigh, .delay s.delay, .sclLow])

/-- R52, R96: the three ACK cells, event by event, and `ackSlot` by `ACK_SDA_MODE`. That the three rows run by themselves, at
every state and whatever `ACK_SDA_MODE`, is the model's choice (log entry 9). -/
def Obligations.AckCells : Prop :=
  PerformsEvents .ackRelease (fun s => [.sdaIn, .delay s.delay, .sclHigh, .delay s.delay, .sclLow, .sdaOut])
    ∧ PerformsEvents .ackDriveLow (fun s => [.sdaLow, .delay s.delay, .sclHigh, .delay s.delay, .sclLow])
    ∧ PerformsEvents .ackHoldLast (fun s => [.delay s.delay, .sclHigh, .delay s.delay, .sclLow])
    ∧ PerformsEvents .ackSlot (fun s =>
        match s.cfg.ackMode with
        | .release => [.sdaIn, .delay s.delay, .sclHigh, .delay s.delay, .sclLow, .sdaOut]
        | .driveLow => [.sdaLow, .delay s.delay, .sclHigh, .delay s.delay, .sclLow]
        | .holdLast => [.delay s.delay, .sclHigh, .delay s.delay, .sclLow])

/-- R53, R97: a byte is its eight bit cells, most significant bit first, and an ACK cell: 46, 45 or 44 events, 18 of them
delays, whatever its value. That the BYTE row runs by itself at every state, as `byteOut` does, is the model's choice (log
entry 9). -/
def Obligations.ByteIsEightBitCellsAndAnAckCell : Prop :=
  ∀ v : Byte,
    let cells := fun s : State =>
      bitCell s.delay (v.getLsbD 7) ++ bitCell s.delay (v.getLsbD 6) ++ bitCell s.delay (v.getLsbD 5)
        ++ bitCell s.delay (v.getLsbD 4) ++ bitCell s.delay (v.getLsbD 3) ++ bitCell s.delay (v.getLsbD 2)
        ++ bitCell s.delay (v.getLsbD 1) ++ bitCell s.delay (v.getLsbD 0) ++ ackCell s.cfg.ackMode s.delay
    PerformsEvents (.byteOut v) cells ∧ PerformsEvents (.byteCells v) cells
      ∧ ∀ s, (cells s).length = (match s.cfg.ackMode with | .release => 46 | .driveLow => 45 | .holdLast => 44)
        ∧ ((cells s).filter isDelay).length = 18

/-- R57 to R66, R69: the bytes of the wire rows, by arithmetic on their fields. That each row runs by itself at every state,
with no frame open too, is the model's choice (log entry 9). -/
def Obligations.WireRowsClockOutTheirBytes : Prop :=
  (∀ a : BitVec 7, ClocksOut (.addrByte a) fun _ => [BitVec.ofNat 8 (2 * a.toNat)])
    ∧ ClocksOut .ctrlCmd (fun _ => [0x00#8]) ∧ ClocksOut .ctrlData (fun _ => [0x40#8])
    ∧ ClocksOut .displayOff (fun _ => [0xAE#8]) ∧ ClocksOut .displayOn (fun _ => [0xAF#8])
    ∧ (∀ v, ClocksOut (.cmdContrast v) fun _ => [0x81#8, v])
    ∧ (∀ p : BitVec 3, ClocksOut (.setPage p) fun _ => [BitVec.ofNat 8 (0xB0 + p.toNat)])
    ∧ (∀ l : BitVec 4, ClocksOut (.setColLow l) fun _ => [BitVec.ofNat 8 l.toNat])
    ∧ (∀ h : BitVec 4, ClocksOut (.setColHigh h) fun _ => [BitVec.ofNat 8 (0x10 + h.toNat)])
    ∧ (∀ (p : BitVec 3) (l h : BitVec 4), ClocksOut (.positionTriplet p l h) fun _ =>
        [BitVec.ofNat 8 (0xB0 + p.toNat), BitVec.ofNat 8 l.toNat, BitVec.ofNat 8 (0x10 + h.toNat)])
    ∧ ∀ d, ClocksOut (.dataByte d) fun _ => [d]

/-- R68: the eleven items of the initialisation sequence, each by its bytes. That each item runs by itself at every state,
with no frame open too, is the model's choice (log entry 9). -/
def Obligations.InitialisationItemsClockOutTheirBytes : Prop :=
  ClocksOut .initDisplayOff (fun _ => [0xAE#8]) ∧ ClocksOut .initMuxRatio (fun s => [s.cfg.opcMux, 0x3F#8])
    ∧ ClocksOut .initDisplayOffset (fun s => [s.cfg.opcOffset, 0x00#8])
    ∧ (∀ f, ClocksOut (.initClockDivide f) fun s => [s.cfg.opcClkDiv, f])
    ∧ ClocksOut .initChargePumpEnableSeq (fun s => s.cfg.seqCpEn)
    ∧ ClocksOut .initSegComRemap (fun s => s.cfg.seqRemap)
    ∧ ClocksOut .initChargePump (fun s => [s.cfg.opcChgPump, 0x14#8])
    ∧ ClocksOut .initDisplayOn (fun _ => [0xAF#8])
    ∧ ClocksOut .initAddressingMode (fun s => [s.cfg.opcAddrMode, s.cfg.modeHorizontal])
    ∧ (∀ p, ClocksOut (.initPrecharge p) fun s => [s.cfg.opcPrechg, p])
    ∧ ClocksOut .initVcomhDeselect (fun s => [s.cfg.opcVcomh, s.cfg.minBrightness])

/-- R74: the five frame shapes, by their bytes after the address byte; the initialisation payload has the items of R68 in
order, written out. -/
def Obligations.FrameShapesSendTheirBytes : Prop :=
  (∀ c, SendsFrame (.frameCommand1 c) fun _ => [0x00#8, c])
    ∧ (∀ c1 c2, SendsFrame (.frameCommand2 c1 c2) fun _ => [0x00#8, c1, c2])
    ∧ (∀ (p : BitVec 3) (col : BitVec 7), SendsFrame (.framePosition p col) fun _ =>
        [0x00#8, BitVec.ofNat 8 (0xB0 + p.toNat), BitVec.ofNat 8 (col.toNat % 16),
          BitVec.ofNat 8 (0x10 + col.toNat / 16)])
    ∧ (∀ ds, SendsFrame (.frameData ds) fun _ => 0x40#8 :: ds)
    ∧ ∀ pc rf, SendsFrame (.frameInit pc rf) fun s =>
        [0x00#8, 0xAE#8, s.cfg.opcMux, 0x3F#8, s.cfg.opcOffset, 0x00#8, s.cfg.opcClkDiv, rf] ++ s.cfg.seqCpEn
          ++ s.cfg.seqRemap ++ [s.cfg.opcChgPump, 0x14#8, 0xAF#8, s.cfg.opcAddrMode, s.cfg.modeHorizontal,
            s.cfg.opcPrechg, pc, s.cfg.opcVcomh, s.cfg.minBrightness]

/-- R56: the FRAME row with no frame open: START, address byte, control byte, payload, STOP, `SEQ` advanced by as many
primitives. That the row has a device address of its own, that it is sent whatever `ADDR` is, and that with a frame open it is
refused as `begin` is, are the model's choice (log entry 22). -/
def Obligations.FrameRowSendsItsFrame : Prop :=
  ∀ (a : BitVec 7) (ctl : Control) (payload : List Byte) (s : State),
    let es := startWave s.delay ++ bytesWave s.cfg.ackMode s.delay (BitVec.ofNat 8 (2 * a.toNat)
            :: (match ctl with | .command => 0x00#8 | .data => 0x40#8) :: payload) ++ stopWave s.delay
    (s.busOpen = false →
      ∃ t, exec (.frame a ctl payload) s = .next t ∧ s.Emits t es ∧ t.seq = s.seq.advance es.length
        ∧ t.busOpen = false ∧ s.KeepsStore t)
      ∧ (s.busOpen = true → exec (.frame a ctl payload) s = .refused .beginWhileOpen)

/-- R56, R202: a frame with `k` bytes after the address byte has `46k + 61`, `45k + 60` or `44k + 59` events and `18k + 22`
delays, whatever the bytes. -/
def Obligations.FrameEventCounts : Prop :=
  ∀ (mode : AckMode) (d : Nat) (a : BitVec 7) (bs : List Byte),
    (frameWave mode d a bs).length
        = (match mode with
          | .release => 46 * bs.length + 61
          | .driveLow => 45 * bs.length + 60
          | .holdLast => 44 * bs.length + 59)
      ∧ ((frameWave mode d a bs).filter isDelay).length = 18 * bs.length + 22

/-- R107: on the wire of a frame begun with both lines released, the data wire moves under a high clock exactly twice, the
clock wire rises `9(k+1) + 1` times, and after it both wires are high and both lines released. -/
def Obligations.WireInvariantsOfAFrame : Prop :=
  ∀ (mode : AckMode) (d : Nat) (a : BitVec 7) (bs : List Byte) (p : Pins),
    p.sda.dir = .input → p.scl.dir = .input →
      countEdges dataMovesUnderClock p (frameWave mode d a bs) = 2
        ∧ countEdges isSample p (frameWave mode d a bs) = 9 * (bs.length + 1) + 1
        ∧ (p.applyAll (frameWave mode d a bs)).dataWire = .high
        ∧ (p.applyAll (frameWave mode d a bs)).clockWire = .high
        ∧ (p.applyAll (frameWave mode d a bs)).sda.dir = .input
        ∧ (p.applyAll (frameWave mode d a bs)).scl.dir = .input

/-- R73, R107, 95_test_vectors.md part 4 (1): the observer reads from a frame begun with both lines released exactly the
bytes passed down, in order, in every ACK mode, and is quiet after it. -/
def Obligations.ObserverReadsTheFrameSent : Prop :=
  ∀ (mode : AckMode) (d : Nat) (a : BitVec 7) (bs : List Byte) (p : Pins) (rx : Rx),
    p.sda.dir = .input → p.scl.dir = .input →
      rx.frames p (frameWave mode d a bs) = [BitVec.ofNat 8 (2 * a.toNat) :: bs]
        ∧ rx.after p (frameWave mode d a bs) = Rx.quiet

/-- The events of a cell, byte or FRAME row decode back to it, with any events after it (R50 to R56). -/
def Obligations.EventsDecodeBack : Prop :=
  ∀ (i : Instr) (mode : AckMode) (d : Nat) (es rest : List Event),
    encodeEvents mode d i = some es → decodeEvents i.slot (es ++ rest) = .ok (i, rest)

/-- The bytes of a wire row decode back to it in its position, with any bytes after it, for every value of its operands and
of the open parameters (R57 to R68). -/
def Obligations.BytesDecodeBack : Prop :=
  ∀ (i : Instr) (cfg : Config) (bs rest : List Byte),
    encodeBytes cfg i = some bs → decodeBytes cfg i.slot (bs ++ rest) = .ok (i, rest)

/-- A frame of any of the five shapes decodes back to its address and its shape, for every value of its operands and of the
open parameters (R74). -/
def Obligations.FrameShapesDecodeBack : Prop :=
  ∀ (i : Instr) (cfg : Config) (a : BitVec 7) (bs : List Byte),
    encodeShape cfg a i = some bs → decodeShape cfg bs = .ok (a, i)

/-- A few words of the opcode table, written out from R57 to R65. How a word is read with no position to tell it by (0x81 with
value 0, 0x78 as an address, the order tried, the layout of the 24-bit word) is the model's choice (log entry 8). -/
def Obligations.TableWordsDecode : Prop :=
  decodeTableWord 8 0xAE = some .displayOff ∧ decodeTableWord 8 0xAF = some .displayOn
    ∧ decodeTableWord 8 0x40 = some .ctrlData ∧ decodeTableWord 8 0xB5 = some (.setPage 5#3)
    ∧ decodeTableWord 8 0x1A = some (.setColHigh 10#4) ∧ decodeTableWord 8 0x07 = some (.setColLow 7#4)
    ∧ decodeTableWord 8 0x81 = some (.cmdContrast 0#8) ∧ decodeTableWord 8 0x78 = some (.addrByte 0x3C#7)
    ∧ decodeTableWord 24 0xB70512 = some (.positionTriplet 7#3 5#4 2#4) ∧ decodeTableWord 8 0xFF = none

/-! ### Bus transport -/

/-- R98: `begin` with no frame open emits START and the address byte, leaves the frame open with the clock driven low, `SEQ`
advanced by as many primitives, and changes nothing else; with a frame open it is refused. -/
def Obligations.BeginOpensAFrame : Prop :=
  ∀ (a : BitVec 7) (s : State),
    let es := [.sdaHigh, .sclHigh, .sdaOut, .sclOut, .delay s.delay, .sdaLow, .delay s.delay, .sclLow]
      ++ byteWave s.cfg.ackMode s.delay (BitVec.ofNat 8 (2 * a.toNat))
    (s.busOpen = false →
      ∃ t, exec (.beginFrame a) s = .next t ∧ s.Emits t es ∧ t.seq = s.seq.advance es.length
        ∧ t.busOpen = true ∧ t.pins.Clocking ∧ s.KeepsStore t)
      ∧ (s.busOpen = true → exec (.beginFrame a) s = .refused .beginWhileOpen)

/-- R99, R23: `writeBytes` in an open frame sends the first `length` bytes of the buffer in index order and nothing beyond,
`SEQ` advanced by as many primitives; with no frame open, or with a shorter buffer, it is refused. That with both it is the
closed frame that is reported is the model's choice (log entry 24). -/
def Obligations.WriteBytesSendsThePrefix : Prop :=
  ∀ (buffer : List Byte) (length : Nat) (s : State),
    let es := bytesWave s.cfg.ackMode s.delay (buffer.take length)
    (s.busOpen = true → length ≤ buffer.length →
      ∃ t, exec (.writeBytes buffer length) s = .next t ∧ s.Emits t es ∧ t.seq = s.seq.advance es.length
        ∧ t.busOpen = true ∧ s.KeepsStore t)
      ∧ (s.busOpen = false → exec (.writeBytes buffer length) s = .refused .writeWhileClosed)
      ∧ (s.busOpen = true → buffer.length < length → exec (.writeBytes buffer length) s = .refused .bufferTooShort)

/-- R100: `end` in an open frame emits STOP, seven primitives, and leaves the bus closed, both latches high and both lines
released; with no frame open it is refused. -/
def Obligations.EndClosesTheFrame : Prop :=
  ∀ s : State,
    (s.busOpen = true →
      ∃ t, exec .endFrame s = .next t
        ∧ s.Emits t [.sdaLow, .delay s.delay, .sclHigh, .delay s.delay, .sdaHigh, .sdaIn, .sclIn]
        ∧ t.seq = s.seq.advance 7 ∧ t.busOpen = false
        ∧ t.pins = { sda := { latch := .high, dir := .input }, scl := { latch := .high, dir := .input } }
        ∧ s.KeepsStore t)
      ∧ (s.busOpen = false → exec .endFrame s = .refused .endWhileClosed)

/-- R105: two writes are one write of the concatenation: the same next state, in an open frame. -/
def Obligations.WritesConcatenate : Prop :=
  ∀ (u v : List Byte) (s : State), s.busOpen = true →
    ∃ t r, exec (.writeBytes u u.length) s = .next t ∧ exec (.writeBytes v v.length) t = .next r
      ∧ exec (.writeBytes (u ++ v) (u ++ v).length) s = .next r

/-- R102: a zero-length write changes nothing, and the frame of `begin`, a zero-length write and `end` from released lines
is read as the address byte alone. -/
def Obligations.ZeroLengthWriteIsNoOperation : Prop :=
  ∀ (a : BitVec 7) (b : List Byte) (s : State),
    (s.busOpen = true → exec (.writeBytes b 0) s = .next s)
      ∧ (s.busOpen = false → s.Released →
          ∃ t u v, exec (.beginFrame a) s = .next t ∧ exec (.writeBytes b 0) t = .next u ∧ exec .endFrame u = .next v
            ∧ v.trace = s.trace ++ (startWave s.delay ++ byteWave s.cfg.ackMode s.delay (BitVec.ofNat 8 (2 * a.toNat))
                ++ stopWave s.delay)
            ∧ s.rx.frames s.pins (startWave s.delay ++ byteWave s.cfg.ackMode s.delay (BitVec.ofNat 8 (2 * a.toNat))
                ++ stopWave s.delay) = [[BitVec.ofNat 8 (2 * a.toNat)]])

/-- R106: a transaction is one frame to `x[ADDR]`; with `ADDR` unset, or a frame open, it is refused. That a list that does not
begin with a control byte, the empty one included, is sent all the same is the model's choice (log entry 23). -/
def Obligations.TransactionIsOneFrame : Prop :=
  ∀ bytes : List Byte, SendsFrame (.transaction bytes) (fun _ => bytes) ∧ NeedsAddressAndClosedBus (.transaction bytes)

/-! ### Device commands -/

/-- R115, R116, R118: `sendCommand`, `sendCommand2` and `writeDataBlock` send one frame each, any byte accepted, the buffer
cut to its length; a buffer shorter than its length is refused (R23). R123: with `ADDR` unset each is refused, and with a
frame open too. That a short buffer is reported before either of these is the model's choice (log entry 24). -/
def Obligations.CommandAndDataFrames : Prop :=
  (∀ c, SendsFrame (.sendCommand c) (fun _ => [0x00#8, c]) ∧ NeedsAddressAndClosedBus (.sendCommand c))
    ∧ (∀ c1 c2, SendsFrame (.sendCommand2 c1 c2) (fun _ => [0x00#8, c1, c2])
        ∧ NeedsAddressAndClosedBus (.sendCommand2 c1 c2))
    ∧ (∀ (buffer : List Byte) (length : Nat), length ≤ buffer.length →
        SendsFrame (.writeDataBlock buffer length) (fun _ => 0x40#8 :: buffer.take length)
          ∧ NeedsAddressAndClosedBus (.writeDataBlock buffer length))
    ∧ ∀ (buffer : List Byte) (length : Nat) (s : State), buffer.length < length →
        exec (.writeDataBlock buffer length) s = .refused .bufferTooShort

/-- R117, R62 to R65: `setPosition` inside the panel sends `00`, `B0 + page`, the column's low four bits, `10` plus its high
bits, in one frame; outside it is refused. R123: inside it, it is refused with `ADDR` unset, and with a frame open too. (That a
negative operand is outside is log entry 21.) -/
def Obligations.SetPositionSendsThePositionTriplet : Prop :=
  (∀ column page : Nat, column ≤ 127 → page ≤ 7 →
      SendsFrame (.setPosition column page) (fun _ =>
        [0x00#8, BitVec.ofNat 8 (0xB0 + page), BitVec.ofNat 8 (column % 16), BitVec.ofNat 8 (0x10 + column / 16)])
        ∧ NeedsAddressAndClosedBus (.setPosition column page))
    ∧ ∀ (column page : Int) (s : State), column < 0 ∨ 127 < column ∨ page < 0 ∨ 7 < page →
        exec (.setPosition column page) s = .refused .positionOutOfRange

/-- R119, R192: `initialize` with its operands in range, idle and with no frame open: `ADDR` is latched, one initialisation
frame goes to the new address, every byte of `FB` reads `0x00`, everything is dirty (by `GRANULARITY`, the other indicator
untouched), and nothing else changes; with an operand too wide it is refused (U9). -/
def Obligations.InitializeEstablishesTheState : Prop :=
  ∀ (address pc rf : Nat) (s : State),
    (address ≤ 127 → pc ≤ 255 → rf ≤ 255 → s.Idle →
      ∃ t, exec (.initializePanel address pc rf) s = .next t
        ∧ t.addr = some (BitVec.ofNat 7 address)
        ∧ s.Emits t (frameWave s.cfg.ackMode s.delay (BitVec.ofNat 7 address)
            (0x00#8 :: initBody s.cfg (BitVec.ofNat 8 pc) (BitVec.ofNat 8 rf)))
        ∧ (∀ i, i < 1024 → t.fbByte i = 0x00#8) ∧ (∀ i, 1024 ≤ i → t.fbByte i = s.fbByte i)
        ∧ (s.cfg.variant.granularity = .page → (∀ p : Fin 8, t.dirty[p] = true) ∧ t.shadow = s.shadow)
        ∧ (s.cfg.variant.granularity = .byte → (∀ i, t.shadowEntry i = none) ∧ t.dirty = s.dirty)
        ∧ t.Idle ∧ t.Released ∧ t.cfg = s.cfg ∧ t.delay = s.delay ∧ t.requests = s.requests ∧ t.result = s.result
        ∧ t.draws = s.draws)
      ∧ (s.seq = .idle → address > 127 ∨ pc > 255 ∨ rf > 255 →
          exec (.initializePanel address pc rf) s = .refused .initOperandOutOfRange)

/-- R120, R121: `setPower` and `setContrast`, `ADDR` set, idle: one frame `00 AF`, `00 AE` or `00 81 v`, and every component
of the state other than `TRACE`, the pins, the observer and the panel as before. -/
def Obligations.PowerAndContrastSendOneFrame : Prop :=
  ∀ (s : State) (a : BitVec 7), s.addr = some a → s.Idle →
    (∀ on, ∃ t, exec (.setPower on) s = .next t
        ∧ s.Emits t (frameWave s.cfg.ackMode s.delay a [0x00#8, if on then 0xAF#8 else 0xAE#8])
        ∧ t.Idle ∧ t.Released ∧ s.KeepsStore t)
      ∧ ∀ v, ∃ t, exec (.setContrast v) s = .next t
        ∧ s.Emits t (frameWave s.cfg.ackMode s.delay a [0x00#8, 0x81#8, v])
        ∧ t.Idle ∧ t.Released ∧ s.KeepsStore t

/-- R191, R123, R41 (U3, U5): out of turn every public operation is refused: before the first `initialize` every one but
it, and while an operation runs every one. That these checks come before those of the operands is the model's reading (log
entry 13). -/
def Obligations.PublicCallsOutOfTurnAreRefused : Prop :=
  (∀ s : State, s.addr = none → s.seq = .idle →
    (∀ on, exec (.setPower on) s = .refused .addressUnset)
      ∧ (∀ v, exec (.setContrast v) s = .refused .addressUnset)
      ∧ (∀ x y c, exec (.setPixel x y c) s = .refused .beforeInitialize)
      ∧ (∀ x y c, exec (.setPixelByte x y c) s = .refused .beforeInitialize)
      ∧ (∀ v, exec (.fill v) s = .refused .beforeInitialize)
      ∧ (∀ b n o, exec (.loadBlock b n o) s = .refused .beforeInitialize)
      ∧ exec .flush s = .refused .beforeInitialize ∧ exec .flushByte s = .refused .beforeInitialize)
    ∧ ∀ (i : Instr) (s : State) (op : Instr) (n : Nat), i.isPublic = true → s.seq = .running op n →
      exec i s = .refused .reentrantCall

/-! ### Framebuffer -/

/-- R136, R31, R32: `setPixel` inside the bitmap, `GRANULARITY = page`: the one byte gets the bit, its seven others kept, every
other byte reads as before, the page's flag is set and the other seven flags kept, `OK` is returned, nothing is sent. -/
def Obligations.SetPixelPaintsOneBitAndMarksItsPage : Prop :=
  ∀ (x y : Nat) (color : Bool) (s : State), x < 128 → y < 64 → s.Initialised → s.seq = .idle →
    s.cfg.variant = .pageBatched →
      ∃ t, exec (.setPixel x y color) s = .next t
        ∧ (∀ b : Nat, b < 8 → (t.fbByte (128 * (y / 8) + x)).getLsbD b
            = if b = y % 8 then color else (s.fbByte (128 * (y / 8) + x)).getLsbD b)
        ∧ (∀ i, i ≠ 128 * (y / 8) + x → t.fbByte i = s.fbByte i)
        ∧ (∀ p : Fin 8, t.dirty[p] = if p.val = y / 8 then true else s.dirty[p])
        ∧ t.result = .status .ok ∧ t.shadow = s.shadow ∧ t.draws = s.draws ∧ s.KeepsWire t

/-- R137, R20: `setPixel` inside the bitmap, `GRANULARITY = byte`, batched: the same bit, no flag and no shadow entry written,
so that the byte is dirty exactly when its new value is not the known shadow. -/
def Obligations.SetPixelByteWritesNoFlag : Prop :=
  ∀ (x y : Nat) (color : Bool) (s : State), x < 128 → y < 64 → s.Initialised → s.seq = .idle →
    s.cfg.variant = .byteBatched →
      ∃ t, exec (.setPixelByte x y color) s = .next t
        ∧ (∀ b : Nat, b < 8 → (t.fbByte (128 * (y / 8) + x)).getLsbD b
            = if b = y % 8 then color else (s.fbByte (128 * (y / 8) + x)).getLsbD b)
        ∧ (∀ i, i ≠ 128 * (y / 8) + x → t.fbByte i = s.fbByte i)
        ∧ (t.shadowDirty (128 * (y / 8) + x) = true
            ↔ s.shadowEntry (128 * (y / 8) + x) ≠ some (t.fbByte (128 * (y / 8) + x)))
        ∧ t.dirty = s.dirty ∧ t.shadow = s.shadow ∧ t.result = .status .ok ∧ t.draws = s.draws ∧ s.KeepsWire t

/-- R167: outside the bitmap `setPixel` (the instance's row) returns `OUT_OF_RANGE` and changes nothing else: no byte, no
indicator, no event; in every configuration. -/
def Obligations.OutOfRangePixelChangesNothing : Prop :=
  ∀ (x y : Int) (color : Bool) (s : State), x < 0 ∨ 128 ≤ x ∨ y < 0 ∨ 64 ≤ y → s.Initialised → s.seq = .idle →
    exec (s.setPixelRow x y color) s = .next { s with result := .status .outOfRange }

/-- R141: after `setPixel(x, y, c)` in range (the instance's row), in every configuration, `pixel(x, y)` reads `c` and every
other pixel reads as before. -/
def Obligations.PixelReadsBackWhatWasSet : Prop :=
  ∀ (x y x' y' : Nat) (color : Bool) (s t : State), x < 128 → y < 64 → x' < 128 → y' < 64 →
    exec (s.setPixelRow x y color) s = .next t →
      t.pixelBit x y = color ∧ ((x', y') ≠ (x, y) → t.pixelBit x' y' = s.pixelBit x' y')

/-- R135: `pixel` inside the bitmap after `initialize` hands back the bit of R31; that it is handed back in the field `result`,
and nothing else changes, is log entry 12. Outside the bitmap R135 leaves it undefined, and before `initialize` R25 leaves `FB`
unspecified: that it runs there and hands back a free value, advances the counter `draws` and changes nothing else is the
model's choice (log entries 3 and 12). -/
def Obligations.PixelObservesOneBit : Prop :=
  ∀ (s : State),
    (∀ x y : Nat, x < 128 → y < 64 → s.Initialised →
        exec (.pixel x y) s = .next { s with result := .pixel ((s.fbByte (128 * (y / 8) + x)).getLsbD (y % 8)) })
      ∧ ∀ x y : Int, x < 0 ∨ 128 ≤ x ∨ y < 0 ∨ 64 ≤ y ∨ s.addr = none →
        exec (.pixel x y) s = .next { s with result := .pixel (Config.freeBit s.draws), draws := s.draws + 1 }

/-- R152, R137: with `FLUSH_MODE = immediate`, `setPixel` inside the bitmap, idle and with `ADDR` set: the bit, then, exactly
when the byte is then dirty, a position frame and a one-byte data frame, and the byte's shadow; every other byte and entry as
before. -/
def Obligations.ImmediateSetPixelSendsTheByte : Prop :=
  ∀ (x y : Nat) (color : Bool) (s : State) (a : BitVec 7), x < 128 → y < 64 → s.addr = some a → s.Idle →
    s.cfg.variant = .byteImmediate →
      let i := 128 * (y / 8) + x
      let v := if color then s.fbByte i ||| (1#8 <<< (y % 8)) else s.fbByte i &&& ~~~(1#8 <<< (y % 8))
      ∃ t, exec (.setPixelByte x y color) s = .next t ∧ t.fbByte i = v ∧ t.shadowEntry i = some v
        ∧ (∀ j, j ≠ i → t.fbByte j = s.fbByte j ∧ t.shadowEntry j = s.shadowEntry j)
        ∧ s.Emits t (if s.shadowEntry i = some v then [] else
            frameWave s.cfg.ackMode s.delay a
                [0x00#8, BitVec.ofNat 8 (0xB0 + y / 8), BitVec.ofNat 8 (x % 16), BitVec.ofNat 8 (0x10 + x / 16)]
              ++ frameWave s.cfg.ackMode s.delay a [0x40#8, v])
        ∧ t.result = .status .ok ∧ t.Idle ∧ t.addr = s.addr ∧ t.dirty = s.dirty ∧ t.cfg = s.cfg ∧ t.delay = s.delay
        ∧ t.requests = s.requests ∧ t.draws = s.draws

/-- The sending step inside `setPixel` as the row of the table that it has (R152): with `FLUSH_MODE = immediate`, inside the
bitmap, a clean byte sends nothing; a dirty one is sent, with its position before it, and its shadow becomes it, everything
else as before; and a dirty one is refused with `ADDR` unset, or with a frame open. In batched mode, and outside the bitmap,
the row does nothing: that it can be performed by itself, and what it does then, is the model's choice (log entry 11). -/
def Obligations.SendingStepSendsADirtyByte : Prop :=
  (∀ (x y : Nat) (s : State), x < 128 → y < 64 → s.cfg.variant = .byteImmediate →
    let i := 128 * (y / 8) + x
    (s.shadowEntry i = some (s.fbByte i) → exec (.setPixelImmediate x y) s = .next s)
      ∧ (s.shadowEntry i ≠ some (s.fbByte i) →
        (∀ a, s.addr = some a → s.busOpen = false →
          let es := frameWave s.cfg.ackMode s.delay a
              [0x00#8, BitVec.ofNat 8 (0xB0 + y / 8), BitVec.ofNat 8 (x % 16), BitVec.ofNat 8 (0x10 + x / 16)]
            ++ frameWave s.cfg.ackMode s.delay a [0x40#8, s.fbByte i]
          ∃ t, exec (.setPixelImmediate x y) s = .next t ∧ s.Emits t es ∧ t.seq = s.seq.advance es.length
            ∧ t.shadowEntry i = some (s.fbByte i) ∧ (∀ j, j ≠ i → t.shadowEntry j = s.shadowEntry j)
            ∧ (∀ j, t.fbByte j = s.fbByte j) ∧ t.busOpen = false ∧ t.addr = s.addr ∧ t.dirty = s.dirty
            ∧ t.cfg = s.cfg ∧ t.delay = s.delay ∧ t.requests = s.requests ∧ t.result = s.result ∧ t.draws = s.draws)
        ∧ (s.addr = none → exec (.setPixelImmediate x y) s = .refused .addressUnset)
        ∧ (s.addr ≠ none → s.busOpen = true → exec (.setPixelImmediate x y) s = .refused .beginWhileOpen)))
    ∧ ∀ (x y : Int) (s : State), s.cfg.variant.flushMode = .batched ∨ x < 0 ∨ 128 ≤ x ∨ y < 0 ∨ 64 ≤ y →
      exec (.setPixelImmediate x y) s = .next s

/-- The two rows of the table that are spelled `setPixel(x, y, color)`, and the two spelled `flush()`, run as the instance's
configuration says, whichever row names them: the same outcome from every state (the model's choice, log entry 10). -/
def Obligations.RowsOfOneOperationAgree : Prop :=
  ∀ s : State, (∀ x y color, exec (.setPixelByte x y color) s = exec (.setPixel x y color) s)
    ∧ exec .flushByte s = exec .flush s

/-- R138, R142: `fill` sets every byte, marks everything (every flag, or every shadow entry unknown) and sends nothing, in
either flush mode. -/
def Obligations.FillSetsEveryByteAndMarksAll : Prop :=
  ∀ (v : Byte) (s : State), s.Initialised → s.seq = .idle →
    ∃ t, exec (.fill v) s = .next t ∧ (∀ i, i < 1024 → t.fbByte i = v) ∧ (∀ i, 1024 ≤ i → t.fbByte i = s.fbByte i)
      ∧ (s.cfg.variant.granularity = .page → (∀ p : Fin 8, t.dirty[p] = true) ∧ t.shadow = s.shadow)
      ∧ (s.cfg.variant.granularity = .byte → (∀ i, t.shadowEntry i = none) ∧ t.dirty = s.dirty)
      ∧ t.result = s.result ∧ t.draws = s.draws ∧ s.KeepsWire t

/-- R139, R140, R35: `loadBlock` with its operands in the domain, `GRANULARITY = page`: the bytes land at the offset rounded
down to its page, every other byte reads as before, exactly the flags of the pages that received a byte are set, nothing is
sent. -/
def Obligations.LoadBlockCopiesAndMarks : Prop :=
  ∀ (buffer : List Byte) (count offset : Nat) (s : State), s.Initialised → s.seq = .idle →
    s.cfg.variant.granularity = .page → 128 * (offset / 128) + count ≤ 1024 → count ≤ buffer.length →
      let eff := 128 * (offset / 128)
      ∃ t, exec (.loadBlock buffer count offset) s = .next t
        ∧ (∀ k, k < count → some (t.fbByte (eff + k)) = buffer[k]?)
        ∧ (∀ i, i < eff ∨ eff + count ≤ i → t.fbByte i = s.fbByte i)
        ∧ (∀ p : Fin 8, t.dirty[p] = (s.dirty[p] || decide (∃ k, k < count ∧ (eff + k) / 128 = p.val)))
        ∧ t.shadow = s.shadow ∧ t.result = s.result ∧ t.draws = s.draws ∧ s.KeepsWire t

/-- R139, R140: `loadBlock` at an aligned offset, `GRANULARITY = byte`: the bytes land, every other byte reads as before, no
flag and no shadow entry is written, nothing is sent. -/
def Obligations.LoadBlockFineVariantCopies : Prop :=
  ∀ (buffer : List Byte) (count page : Nat) (s : State), s.Initialised → s.seq = .idle →
    s.cfg.variant.granularity = .byte → 128 * page + count ≤ 1024 → count ≤ buffer.length →
      ∃ t, exec (.loadBlock buffer count (128 * page : Nat)) s = .next t
        ∧ (∀ k, k < count → some (t.fbByte (128 * page + k)) = buffer[k]?)
        ∧ (∀ i, i < 128 * page ∨ 128 * page + count ≤ i → t.fbByte i = s.fbByte i)
        ∧ t.dirty = s.dirty ∧ t.shadow = s.shadow ∧ t.result = s.result ∧ t.draws = s.draws ∧ s.KeepsWire t

/-- R139, R35, R46, R23: when `loadBlock` is refused, in the order of the checks. That a short buffer, which R139's pseudocode
does not test, is reported after the three refusals it names is the model's choice (log entry 24). -/
def Obligations.LoadBlockRefusals : Prop :=
  ∀ (buffer : List Byte) (s : State), s.Initialised → s.seq = .idle →
    (∀ count offset : Int, count < 0 ∨ offset < 0 →
        exec (.loadBlock buffer count offset) s = .refused .loadBlockNegative)
      ∧ (∀ count offset : Nat, s.cfg.variant.granularity = .byte → offset % 128 ≠ 0 →
          exec (.loadBlock buffer count offset) s = .refused .loadBlockUnaligned)
      ∧ (∀ count offset : Nat, (s.cfg.variant.granularity = .page ∨ offset % 128 = 0) →
          1024 < 128 * (offset / 128) + count → exec (.loadBlock buffer count offset) s = .refused .loadBlockOutOfRange)
      ∧ ∀ count offset : Nat, (s.cfg.variant.granularity = .page ∨ offset % 128 = 0) →
          128 * (offset / 128) + count ≤ 1024 → buffer.length < count →
          exec (.loadBlock buffer count offset) s = .refused .bufferTooShort

/-! ### Flush -/

/-- R150, R153, R156: `flush` with `GRANULARITY = page`, idle and with `ADDR` set: for each page whose flag is set, in
increasing order, a position frame for column 0 and a data frame with its whole row; every flag is clear after; the
framebuffer, the shadow and the rest are as before. -/
def Obligations.FlushSendsDirtyPagesInOrder : Prop :=
  ∀ (s : State) (a : BitVec 7), s.addr = some a → s.Idle → s.cfg.variant.granularity = .page →
    ∃ t, exec .flush s = .next t
      ∧ s.Emits t (([0, 1, 2, 3, 4, 5, 6, 7] : List (Fin 8)).flatMap fun p =>
          if s.dirty[p] then
            frameWave s.cfg.ackMode s.delay a [0x00#8, BitVec.ofNat 8 (0xB0 + p.val), 0x00#8, 0x10#8]
              ++ frameWave s.cfg.ackMode s.delay a
                (0x40#8 :: (List.range 128).map fun c => s.fbByte (128 * p.val + c))
          else [])
      ∧ (∀ p : Fin 8, t.dirty[p] = false) ∧ t.fb = s.fb ∧ (∀ i, t.fbByte i = s.fbByte i) ∧ t.shadow = s.shadow
      ∧ t.Idle ∧ t.addr = s.addr ∧ t.cfg = s.cfg ∧ t.delay = s.delay ∧ t.requests = s.requests
      ∧ t.result = s.result ∧ t.draws = s.draws

/-- R151, R153, R156: `flush` of the fine variant: a page is sent when one of its bytes has an unknown or different shadow,
whole and in increasing order; after it the shadow of each of its bytes is the live byte. -/
def Obligations.FlushByteSendsPagesWithADirtyByte : Prop :=
  ∀ (s : State) (a : BitVec 7), s.addr = some a → s.Idle → s.cfg.variant.granularity = .byte →
    ∃ t, exec .flushByte s = .next t
      ∧ s.Emits t (([0, 1, 2, 3, 4, 5, 6, 7] : List (Fin 8)).flatMap fun p =>
          if (List.range 128).any (fun c => s.shadowEntry (128 * p.val + c) != some (s.fbByte (128 * p.val + c))) then
            frameWave s.cfg.ackMode s.delay a [0x00#8, BitVec.ofNat 8 (0xB0 + p.val), 0x00#8, 0x10#8]
              ++ frameWave s.cfg.ackMode s.delay a
                (0x40#8 :: (List.range 128).map fun c => s.fbByte (128 * p.val + c))
          else [])
      ∧ (∀ i, i < 1024 → t.shadowEntry i = some (s.fbByte i))
      ∧ (∀ i, 1024 ≤ i → t.shadowEntry i = s.shadowEntry i)
      ∧ t.fb = s.fb ∧ (∀ i, t.fbByte i = s.fbByte i) ∧ t.dirty = s.dirty
      ∧ t.Idle ∧ t.addr = s.addr ∧ t.cfg = s.cfg ∧ t.delay = s.delay ∧ t.requests = s.requests
      ∧ t.result = s.result ∧ t.draws = s.draws

/-- R154, R44: after a `flush`, in every configuration, every dirty indicator is clear, and a second `flush` answers the very
same state. -/
def Obligations.FlushTwiceSendsNothingMore : Prop :=
  ∀ s t : State, exec s.flushRow s = .next t → t.AllClean ∧ exec s.flushRow t = .next t

/-- R155: with no page dirty, `GRANULARITY = page`, one `setPixel` in range dirties exactly the pixel's page and sends nothing,
and a `flush` then puts on the wire exactly one position frame and one data frame, those of that page, and leaves no page
dirty. -/
def Obligations.OnePixelCostsOnePage : Prop :=
  ∀ (x y : Nat) (color : Bool) (s : State) (a : BitVec 7), x < 128 → y < 64 → s.addr = some a → s.Settled →
    s.cfg.variant = .pageBatched → s.AllClean →
      ∃ t u, exec (.setPixel x y color) s = .next t ∧ exec .flush t = .next u ∧ u.AllClean ∧ t.trace = s.trace
        ∧ (∀ p : Fin 8, t.dirty[p] = decide (p.val = y / 8))
        ∧ ∃ es, u.trace = t.trace ++ es
          ∧ t.rx.frames t.pins es
            = [[BitVec.ofNat 8 (2 * a.toNat), 0x00#8, BitVec.ofNat 8 (0xB0 + y / 8), 0x00#8, 0x10#8],
               BitVec.ofNat 8 (2 * a.toNat) :: 0x40#8
                 :: (List.range 128).map fun c => t.fbByte (128 * (y / 8) + c)]

/-- R157, R202: a `flush` with `n` dirty pages, in every configuration, from released lines: `2n` frames, `2438n` delays,
`1215n` clock pulses and one rise more for each frame's STOP, and `6240n` events in mode `release` (`6105n`, `5970n` in the
others). -/
def Obligations.FlushCounts : Prop :=
  ∀ (s t : State) (n : Nat), s.Released → (pages.filter s.pageDirty).length = n → exec s.flushRow s = .next t →
    ∃ es, t.trace = s.trace ++ es ∧ (s.rx.frames s.pins es).length = 2 * n ∧ (es.filter isDelay).length = 2438 * n
      ∧ countEdges isSample s.pins es = 1215 * n + 2 * n
      ∧ es.length = (match s.cfg.ackMode with | .release => 6240 | .driveLow => 6105 | .holdLast => 5970) * n

/-! ### Rules over all public operations, and the panel -/

/-- R24 (ii), (iii), R45: a public operation leaves the block as every public operation finds it: idle, the bus closed, the
lines released, the observer with no frame open. -/
def Obligations.PublicOperationsStaySettled : Prop :=
  ∀ (i : Instr) (s t : State), i.isPublic = true → s.Settled → exec i s = .next t → t.Settled

/-- R43, R44, R158: every public operation keeps the indicators in step with the reference receiver. -/
def Obligations.PublicOperationsKeepThePanelInStep : Prop :=
  ∀ (i : Instr) (s t : State), i.isPublic = true → s.Settled → s.Synced → exec i s = .next t → t.Synced

/-- R43: being in step is the superset invariant: every byte that no indicator covers is on the panel. -/
def Obligations.InStepMeansSuperset : Prop :=
  ∀ s : State, s.Synced → s.Superset

/-- R158: after a `flush`, frames going to a reference receiver in step, the panel's RAM is the framebuffer. -/
def Obligations.FlushMakesThePanelMatch : Prop :=
  ∀ s t : State, s.Settled → s.Synced → s.addr = some s.panel.address →
    exec s.flushRow s = .next t →
      ∀ p c, p < 8 → c < 128 → t.panel.gram.lookup (128 * p + c) = some (t.fbByte (128 * p + c))

/-- R125: `initialize(0x3C, 0xF1, 0x80)`, `fill(0x00)`, `flush()` from any settled state, in every configuration: the observer
reads the one initialisation frame and then, for the pages in order, a position frame and a data frame of 128 zero bytes. -/
def Obligations.EndToEndScenario : Prop :=
  ∀ s : State, s.Settled →
    ∃ t u v, exec (.initializePanel 0x3C 0xF1 0x80) s = .next t ∧ exec (.fill 0x00#8) t = .next u
      ∧ exec s.flushRow u = .next v
      ∧ ∃ es, v.trace = s.trace ++ es
        ∧ s.rx.frames s.pins es
          = ([0x78#8, 0x00#8, 0xAE#8, s.cfg.opcMux, 0x3F#8, s.cfg.opcOffset, 0x00#8, s.cfg.opcClkDiv, 0x80#8]
              ++ s.cfg.seqCpEn ++ s.cfg.seqRemap
              ++ [s.cfg.opcChgPump, 0x14#8, 0xAF#8, s.cfg.opcAddrMode, s.cfg.modeHorizontal, s.cfg.opcPrechg, 0xF1#8,
                s.cfg.opcVcomh, s.cfg.minBrightness])
            :: ([0, 1, 2, 3, 4, 5, 6, 7] : List (Fin 8)).flatMap fun p =>
                [[0x78#8, 0x00#8, BitVec.ofNat 8 (0xB0 + p.val), 0x00#8, 0x10#8],
                 0x78#8 :: 0x40#8 :: List.replicate 128 0x00#8]

/-- R180, R59 to R61, R67, R71: what the reference receiver makes of the power, contrast and initialisation frames: sent to
its own address, the display flag, the contrast, or the display turned on, and nothing else (a contrast of `0xAE` does not turn
the display off); sent to another address, nothing; and no frame to another address, whatever its bytes, changes it. That the
bytes of the initialisation frame whose lengths are open change nothing is log entry 16. -/
def Obligations.PanelObeysPowerAndContrast : Prop :=
  (∀ (s : State) (a : BitVec 7), s.Settled → s.addr = some a →
    (∀ on, ∃ t, exec (.setPower on) s = .next t
        ∧ t.panel = if a = s.panel.address then { s.panel with displayOn := on } else s.panel)
      ∧ ∀ v, ∃ t, exec (.setContrast v) s = .next t
        ∧ t.panel = if a = s.panel.address then { s.panel with contrast := v } else s.panel)
    ∧ (∀ (s : State) (address pc rf : Nat), s.Settled → address ≤ 127 → pc ≤ 255 → rf ≤ 255 →
        ∃ t, exec (.initializePanel address pc rf) s = .next t
          ∧ t.panel = if BitVec.ofNat 7 address = s.panel.address then { s.panel with displayOn := true } else s.panel)
    ∧ ∀ (cfg : Config) (p : Panel) (b : Byte) (rest : List Byte), b ≠ BitVec.ofNat 8 (2 * p.address.toNat) →
        p.receive cfg (b :: rest) = p
end

