-- ==== Sys2Proof/Laws/Exec.lean ====
section
/-!
SUPPORT. One lemma per instruction: `exec` calls its meaning.
-/

namespace Sys2Proof.Machine

@[simp] theorem exec_bit1 (s : State) :
    exec .bit1 s = execBit1 s := rfl

@[simp] theorem exec_bit0 (s : State) :
    exec .bit0 s = execBit0 s := rfl

@[simp] theorem exec_ackRelease (s : State) :
    exec .ackRelease s = execAckRelease s := rfl

@[simp] theorem exec_ackDriveLow (s : State) :
    exec .ackDriveLow s = execAckDriveLow s := rfl

@[simp] theorem exec_ackHoldLast (s : State) :
    exec .ackHoldLast s = execAckHoldLast s := rfl

@[simp] theorem exec_startCell (s : State) :
    exec .startCell s = execStartCell s := rfl

@[simp] theorem exec_stopCell (s : State) :
    exec .stopCell s = execStopCell s := rfl

@[simp] theorem exec_byteCells (v : Byte) (s : State) :
    exec (.byteCells v) s = execByteCells v s := rfl

@[simp] theorem exec_frame (addr : BitVec 7) (ctl : Control) (payload : List Byte) (s : State) :
    exec (.frame addr ctl payload) s = execFrame addr ctl payload s := rfl

@[simp] theorem exec_addrByte (a : BitVec 7) (s : State) :
    exec (.addrByte a) s = execAddrByte a s := rfl

@[simp] theorem exec_ctrlCmd (s : State) :
    exec .ctrlCmd s = execCtrlCmd s := rfl

@[simp] theorem exec_ctrlData (s : State) :
    exec .ctrlData s = execCtrlData s := rfl

@[simp] theorem exec_displayOff (s : State) :
    exec .displayOff s = execDisplayOff s := rfl

@[simp] theorem exec_displayOn (s : State) :
    exec .displayOn s = execDisplayOn s := rfl

@[simp] theorem exec_cmdContrast (v : Byte) (s : State) :
    exec (.cmdContrast v) s = execCmdContrast v s := rfl

@[simp] theorem exec_setPage (p : BitVec 3) (s : State) :
    exec (.setPage p) s = execSetPage p s := rfl

@[simp] theorem exec_setColLow (l : BitVec 4) (s : State) :
    exec (.setColLow l) s = execSetColLow l s := rfl

@[simp] theorem exec_setColHigh (h : BitVec 4) (s : State) :
    exec (.setColHigh h) s = execSetColHigh h s := rfl

@[simp] theorem exec_positionTriplet (p : BitVec 3) (l h : BitVec 4) (s : State) :
    exec (.positionTriplet p l h) s = execPositionTriplet p l h s := rfl

@[simp] theorem exec_dataByte (d : Byte) (s : State) :
    exec (.dataByte d) s = execDataByte d s := rfl

@[simp] theorem exec_initDisplayOff (s : State) :
    exec .initDisplayOff s = execInitDisplayOff s := rfl

@[simp] theorem exec_initMuxRatio (s : State) :
    exec .initMuxRatio s = execInitMuxRatio s := rfl

@[simp] theorem exec_initDisplayOffset (s : State) :
    exec .initDisplayOffset s = execInitDisplayOffset s := rfl

@[simp] theorem exec_initClockDivide (f : Byte) (s : State) :
    exec (.initClockDivide f) s = execInitClockDivide f s := rfl

@[simp] theorem exec_initChargePumpEnableSeq (s : State) :
    exec .initChargePumpEnableSeq s = execInitChargePumpEnableSeq s := rfl

@[simp] theorem exec_initSegComRemap (s : State) :
    exec .initSegComRemap s = execInitSegComRemap s := rfl

@[simp] theorem exec_initChargePump (s : State) :
    exec .initChargePump s = execInitChargePump s := rfl

@[simp] theorem exec_initDisplayOn (s : State) :
    exec .initDisplayOn s = execInitDisplayOn s := rfl

@[simp] theorem exec_initAddressingMode (s : State) :
    exec .initAddressingMode s = execInitAddressingMode s := rfl

@[simp] theorem exec_initPrecharge (p : Byte) (s : State) :
    exec (.initPrecharge p) s = execInitPrecharge p s := rfl

@[simp] theorem exec_initVcomhDeselect (s : State) :
    exec .initVcomhDeselect s = execInitVcomhDeselect s := rfl

@[simp] theorem exec_frameCommand1 (c : Byte) (s : State) :
    exec (.frameCommand1 c) s = execFrameCommand1 c s := rfl

@[simp] theorem exec_frameCommand2 (c1 c2 : Byte) (s : State) :
    exec (.frameCommand2 c1 c2) s = execFrameCommand2 c1 c2 s := rfl

@[simp] theorem exec_framePosition (page : BitVec 3) (column : BitVec 7) (s : State) :
    exec (.framePosition page column) s = execFramePosition page column s := rfl

@[simp] theorem exec_frameData (ds : List Byte) (s : State) :
    exec (.frameData ds) s = execFrameData ds s := rfl

@[simp] theorem exec_frameInit (pc rf : Byte) (s : State) :
    exec (.frameInit pc rf) s = execFrameInit pc rf s := rfl

@[simp] theorem exec_sdaSetHigh (s : State) :
    exec .sdaSetHigh s = execSdaSetHigh s := rfl

@[simp] theorem exec_sdaSetLow (s : State) :
    exec .sdaSetLow s = execSdaSetLow s := rfl

@[simp] theorem exec_sdaSetDirectionOutput (s : State) :
    exec .sdaSetDirectionOutput s = execSdaSetDirectionOutput s := rfl

@[simp] theorem exec_sdaSetDirectionInput (s : State) :
    exec .sdaSetDirectionInput s = execSdaSetDirectionInput s := rfl

@[simp] theorem exec_sclSetHigh (s : State) :
    exec .sclSetHigh s = execSclSetHigh s := rfl

@[simp] theorem exec_sclSetLow (s : State) :
    exec .sclSetLow s = execSclSetLow s := rfl

@[simp] theorem exec_sclSetDirectionOutput (s : State) :
    exec .sclSetDirectionOutput s = execSclSetDirectionOutput s := rfl

@[simp] theorem exec_sclSetDirectionInput (s : State) :
    exec .sclSetDirectionInput s = execSclSetDirectionInput s := rfl

@[simp] theorem exec_precisionDelay (us : Nat) (s : State) :
    exec (.precisionDelay us) s = execPrecisionDelay us s := rfl

@[simp] theorem exec_clockBit (b : Bool) (s : State) :
    exec (.clockBit b) s = execClockBit b s := rfl

@[simp] theorem exec_ackSlot (s : State) :
    exec .ackSlot s = execAckSlot s := rfl

@[simp] theorem exec_byteOut (v : Byte) (s : State) :
    exec (.byteOut v) s = execByteOut v s := rfl

@[simp] theorem exec_beginFrame (deviceAddress : BitVec 7) (s : State) :
    exec (.beginFrame deviceAddress) s = execBeginFrame deviceAddress s := rfl

@[simp] theorem exec_writeBytes (buffer : List Byte) (length : Nat) (s : State) :
    exec (.writeBytes buffer length) s = execWriteBytes buffer length s := rfl

@[simp] theorem exec_endFrame (s : State) :
    exec .endFrame s = execEndFrame s := rfl

@[simp] theorem exec_transaction (bytes : List Byte) (s : State) :
    exec (.transaction bytes) s = execTransaction bytes s := rfl

@[simp] theorem exec_sendCommand (c : Byte) (s : State) :
    exec (.sendCommand c) s = execSendCommand c s := rfl

@[simp] theorem exec_sendCommand2 (c1 c2 : Byte) (s : State) :
    exec (.sendCommand2 c1 c2) s = execSendCommand2 c1 c2 s := rfl

@[simp] theorem exec_setPosition (column page : Int) (s : State) :
    exec (.setPosition column page) s = execSetPosition column page s := rfl

@[simp] theorem exec_writeDataBlock (buffer : List Byte) (length : Nat) (s : State) :
    exec (.writeDataBlock buffer length) s = execWriteDataBlock buffer length s := rfl

@[simp] theorem exec_initializePanel (address preChargePeriod refreshFrequency : Nat) (s : State) :
    exec (.initializePanel address preChargePeriod refreshFrequency) s = execInitializePanel address preChargePeriod refreshFrequency s := rfl

@[simp] theorem exec_setPower (on : Bool) (s : State) :
    exec (.setPower on) s = execSetPower on s := rfl

@[simp] theorem exec_setContrast (value : Byte) (s : State) :
    exec (.setContrast value) s = execSetContrast value s := rfl

@[simp] theorem exec_pixel (x y : Int) (s : State) :
    exec (.pixel x y) s = execPixel x y s := rfl

@[simp] theorem exec_setPixel (x y : Int) (color : Bool) (s : State) :
    exec (.setPixel x y color) s = execSetPixel x y color s := rfl

@[simp] theorem exec_setPixelByte (x y : Int) (color : Bool) (s : State) :
    exec (.setPixelByte x y color) s = execSetPixelByte x y color s := rfl

@[simp] theorem exec_setPixelImmediate (x y : Int) (s : State) :
    exec (.setPixelImmediate x y) s = execSetPixelImmediate x y s := rfl

@[simp] theorem exec_fill (value : Byte) (s : State) :
    exec (.fill value) s = execFill value s := rfl

@[simp] theorem exec_loadBlock (buffer : List Byte) (byteCount byteOffset : Int) (s : State) :
    exec (.loadBlock buffer byteCount byteOffset) s = execLoadBlock buffer byteCount byteOffset s := rfl

@[simp] theorem exec_flush (s : State) :
    exec .flush s = execFlush s := rfl

@[simp] theorem exec_flushByte (s : State) :
    exec .flushByte s = execFlushByte s := rfl

end Sys2Proof.Machine
end

