-- ==== Sys2Proof/Laws/State.lean ====
section
/-!
SUPPORT. One lemma per field per update of the state, so that no later proof unfolds a record update.
-/

namespace Sys2Proof.Machine

/-! ### `State.setAddr` -/

@[simp] theorem State.setAddr_cfg (s : State) (a : Option (BitVec 7)) :
    (s.setAddr a).cfg = s.cfg := rfl

@[simp] theorem State.setAddr_pins (s : State) (a : Option (BitVec 7)) :
    (s.setAddr a).pins = s.pins := rfl

@[simp] theorem State.setAddr_addr (s : State) (a : Option (BitVec 7)) :
    (s.setAddr a).addr = a := rfl

@[simp] theorem State.setAddr_delay (s : State) (a : Option (BitVec 7)) :
    (s.setAddr a).delay = s.delay := rfl

@[simp] theorem State.setAddr_busOpen (s : State) (a : Option (BitVec 7)) :
    (s.setAddr a).busOpen = s.busOpen := rfl

@[simp] theorem State.setAddr_seq (s : State) (a : Option (BitVec 7)) :
    (s.setAddr a).seq = s.seq := rfl

@[simp] theorem State.setAddr_fb (s : State) (a : Option (BitVec 7)) :
    (s.setAddr a).fb = s.fb := rfl

@[simp] theorem State.setAddr_dirty (s : State) (a : Option (BitVec 7)) :
    (s.setAddr a).dirty = s.dirty := rfl

@[simp] theorem State.setAddr_shadow (s : State) (a : Option (BitVec 7)) :
    (s.setAddr a).shadow = s.shadow := rfl

@[simp] theorem State.setAddr_trace (s : State) (a : Option (BitVec 7)) :
    (s.setAddr a).trace = s.trace := rfl

@[simp] theorem State.setAddr_rx (s : State) (a : Option (BitVec 7)) :
    (s.setAddr a).rx = s.rx := rfl

@[simp] theorem State.setAddr_panel (s : State) (a : Option (BitVec 7)) :
    (s.setAddr a).panel = s.panel := rfl

@[simp] theorem State.setAddr_requests (s : State) (a : Option (BitVec 7)) :
    (s.setAddr a).requests = s.requests := rfl

@[simp] theorem State.setAddr_result (s : State) (a : Option (BitVec 7)) :
    (s.setAddr a).result = s.result := rfl

@[simp] theorem State.setAddr_draws (s : State) (a : Option (BitVec 7)) :
    (s.setAddr a).draws = s.draws := rfl

@[simp] theorem State.setAddr_setAddr (s : State) (a a' : Option (BitVec 7)) :
    (s.setAddr a).setAddr a' = s.setAddr a' := rfl

@[simp] theorem State.setAddr_self (s : State) :
    s.setAddr s.addr = s := rfl

/-! ### `State.setBusOpen` -/

@[simp] theorem State.setBusOpen_cfg (s : State) (b : Bool) :
    (s.setBusOpen b).cfg = s.cfg := rfl

@[simp] theorem State.setBusOpen_pins (s : State) (b : Bool) :
    (s.setBusOpen b).pins = s.pins := rfl

@[simp] theorem State.setBusOpen_addr (s : State) (b : Bool) :
    (s.setBusOpen b).addr = s.addr := rfl

@[simp] theorem State.setBusOpen_delay (s : State) (b : Bool) :
    (s.setBusOpen b).delay = s.delay := rfl

@[simp] theorem State.setBusOpen_busOpen (s : State) (b : Bool) :
    (s.setBusOpen b).busOpen = b := rfl

@[simp] theorem State.setBusOpen_seq (s : State) (b : Bool) :
    (s.setBusOpen b).seq = s.seq := rfl

@[simp] theorem State.setBusOpen_fb (s : State) (b : Bool) :
    (s.setBusOpen b).fb = s.fb := rfl

@[simp] theorem State.setBusOpen_dirty (s : State) (b : Bool) :
    (s.setBusOpen b).dirty = s.dirty := rfl

@[simp] theorem State.setBusOpen_shadow (s : State) (b : Bool) :
    (s.setBusOpen b).shadow = s.shadow := rfl

@[simp] theorem State.setBusOpen_trace (s : State) (b : Bool) :
    (s.setBusOpen b).trace = s.trace := rfl

@[simp] theorem State.setBusOpen_rx (s : State) (b : Bool) :
    (s.setBusOpen b).rx = s.rx := rfl

@[simp] theorem State.setBusOpen_panel (s : State) (b : Bool) :
    (s.setBusOpen b).panel = s.panel := rfl

@[simp] theorem State.setBusOpen_requests (s : State) (b : Bool) :
    (s.setBusOpen b).requests = s.requests := rfl

@[simp] theorem State.setBusOpen_result (s : State) (b : Bool) :
    (s.setBusOpen b).result = s.result := rfl

@[simp] theorem State.setBusOpen_draws (s : State) (b : Bool) :
    (s.setBusOpen b).draws = s.draws := rfl

@[simp] theorem State.setBusOpen_setBusOpen (s : State) (b b' : Bool) :
    (s.setBusOpen b).setBusOpen b' = s.setBusOpen b' := rfl

@[simp] theorem State.setBusOpen_self (s : State) :
    s.setBusOpen s.busOpen = s := rfl

/-! ### `State.setSeq` -/

@[simp] theorem State.setSeq_cfg (s : State) (q : Seq) :
    (s.setSeq q).cfg = s.cfg := rfl

@[simp] theorem State.setSeq_pins (s : State) (q : Seq) :
    (s.setSeq q).pins = s.pins := rfl

@[simp] theorem State.setSeq_addr (s : State) (q : Seq) :
    (s.setSeq q).addr = s.addr := rfl

@[simp] theorem State.setSeq_delay (s : State) (q : Seq) :
    (s.setSeq q).delay = s.delay := rfl

@[simp] theorem State.setSeq_busOpen (s : State) (q : Seq) :
    (s.setSeq q).busOpen = s.busOpen := rfl

@[simp] theorem State.setSeq_seq (s : State) (q : Seq) :
    (s.setSeq q).seq = q := rfl

@[simp] theorem State.setSeq_fb (s : State) (q : Seq) :
    (s.setSeq q).fb = s.fb := rfl

@[simp] theorem State.setSeq_dirty (s : State) (q : Seq) :
    (s.setSeq q).dirty = s.dirty := rfl

@[simp] theorem State.setSeq_shadow (s : State) (q : Seq) :
    (s.setSeq q).shadow = s.shadow := rfl

@[simp] theorem State.setSeq_trace (s : State) (q : Seq) :
    (s.setSeq q).trace = s.trace := rfl

@[simp] theorem State.setSeq_rx (s : State) (q : Seq) :
    (s.setSeq q).rx = s.rx := rfl

@[simp] theorem State.setSeq_panel (s : State) (q : Seq) :
    (s.setSeq q).panel = s.panel := rfl

@[simp] theorem State.setSeq_requests (s : State) (q : Seq) :
    (s.setSeq q).requests = s.requests := rfl

@[simp] theorem State.setSeq_result (s : State) (q : Seq) :
    (s.setSeq q).result = s.result := rfl

@[simp] theorem State.setSeq_draws (s : State) (q : Seq) :
    (s.setSeq q).draws = s.draws := rfl

@[simp] theorem State.setSeq_setSeq (s : State) (q q' : Seq) :
    (s.setSeq q).setSeq q' = s.setSeq q' := rfl

@[simp] theorem State.setSeq_self (s : State) :
    s.setSeq s.seq = s := rfl

/-! ### `State.setFb` -/

@[simp] theorem State.setFb_cfg (s : State) (m : Mem) :
    (s.setFb m).cfg = s.cfg := rfl

@[simp] theorem State.setFb_pins (s : State) (m : Mem) :
    (s.setFb m).pins = s.pins := rfl

@[simp] theorem State.setFb_addr (s : State) (m : Mem) :
    (s.setFb m).addr = s.addr := rfl

@[simp] theorem State.setFb_delay (s : State) (m : Mem) :
    (s.setFb m).delay = s.delay := rfl

@[simp] theorem State.setFb_busOpen (s : State) (m : Mem) :
    (s.setFb m).busOpen = s.busOpen := rfl

@[simp] theorem State.setFb_seq (s : State) (m : Mem) :
    (s.setFb m).seq = s.seq := rfl

@[simp] theorem State.setFb_fb (s : State) (m : Mem) :
    (s.setFb m).fb = m := rfl

@[simp] theorem State.setFb_dirty (s : State) (m : Mem) :
    (s.setFb m).dirty = s.dirty := rfl

@[simp] theorem State.setFb_shadow (s : State) (m : Mem) :
    (s.setFb m).shadow = s.shadow := rfl

@[simp] theorem State.setFb_trace (s : State) (m : Mem) :
    (s.setFb m).trace = s.trace := rfl

@[simp] theorem State.setFb_rx (s : State) (m : Mem) :
    (s.setFb m).rx = s.rx := rfl

@[simp] theorem State.setFb_panel (s : State) (m : Mem) :
    (s.setFb m).panel = s.panel := rfl

@[simp] theorem State.setFb_requests (s : State) (m : Mem) :
    (s.setFb m).requests = s.requests := rfl

@[simp] theorem State.setFb_result (s : State) (m : Mem) :
    (s.setFb m).result = s.result := rfl

@[simp] theorem State.setFb_draws (s : State) (m : Mem) :
    (s.setFb m).draws = s.draws := rfl

@[simp] theorem State.setFb_setFb (s : State) (m m' : Mem) :
    (s.setFb m).setFb m' = s.setFb m' := rfl

@[simp] theorem State.setFb_self (s : State) :
    s.setFb s.fb = s := rfl

/-! ### `State.setDirty` -/

@[simp] theorem State.setDirty_cfg (s : State) (d : Vector Bool 8) :
    (s.setDirty d).cfg = s.cfg := rfl

@[simp] theorem State.setDirty_pins (s : State) (d : Vector Bool 8) :
    (s.setDirty d).pins = s.pins := rfl

@[simp] theorem State.setDirty_addr (s : State) (d : Vector Bool 8) :
    (s.setDirty d).addr = s.addr := rfl

@[simp] theorem State.setDirty_delay (s : State) (d : Vector Bool 8) :
    (s.setDirty d).delay = s.delay := rfl

@[simp] theorem State.setDirty_busOpen (s : State) (d : Vector Bool 8) :
    (s.setDirty d).busOpen = s.busOpen := rfl

@[simp] theorem State.setDirty_seq (s : State) (d : Vector Bool 8) :
    (s.setDirty d).seq = s.seq := rfl

@[simp] theorem State.setDirty_fb (s : State) (d : Vector Bool 8) :
    (s.setDirty d).fb = s.fb := rfl

@[simp] theorem State.setDirty_dirty (s : State) (d : Vector Bool 8) :
    (s.setDirty d).dirty = d := rfl

@[simp] theorem State.setDirty_shadow (s : State) (d : Vector Bool 8) :
    (s.setDirty d).shadow = s.shadow := rfl

@[simp] theorem State.setDirty_trace (s : State) (d : Vector Bool 8) :
    (s.setDirty d).trace = s.trace := rfl

@[simp] theorem State.setDirty_rx (s : State) (d : Vector Bool 8) :
    (s.setDirty d).rx = s.rx := rfl

@[simp] theorem State.setDirty_panel (s : State) (d : Vector Bool 8) :
    (s.setDirty d).panel = s.panel := rfl

@[simp] theorem State.setDirty_requests (s : State) (d : Vector Bool 8) :
    (s.setDirty d).requests = s.requests := rfl

@[simp] theorem State.setDirty_result (s : State) (d : Vector Bool 8) :
    (s.setDirty d).result = s.result := rfl

@[simp] theorem State.setDirty_draws (s : State) (d : Vector Bool 8) :
    (s.setDirty d).draws = s.draws := rfl

@[simp] theorem State.setDirty_setDirty (s : State) (d d' : Vector Bool 8) :
    (s.setDirty d).setDirty d' = s.setDirty d' := rfl

@[simp] theorem State.setDirty_self (s : State) :
    s.setDirty s.dirty = s := rfl

/-! ### `State.setShadow` -/

@[simp] theorem State.setShadow_cfg (s : State) (m : Mem) :
    (s.setShadow m).cfg = s.cfg := rfl

@[simp] theorem State.setShadow_pins (s : State) (m : Mem) :
    (s.setShadow m).pins = s.pins := rfl

@[simp] theorem State.setShadow_addr (s : State) (m : Mem) :
    (s.setShadow m).addr = s.addr := rfl

@[simp] theorem State.setShadow_delay (s : State) (m : Mem) :
    (s.setShadow m).delay = s.delay := rfl

@[simp] theorem State.setShadow_busOpen (s : State) (m : Mem) :
    (s.setShadow m).busOpen = s.busOpen := rfl

@[simp] theorem State.setShadow_seq (s : State) (m : Mem) :
    (s.setShadow m).seq = s.seq := rfl

@[simp] theorem State.setShadow_fb (s : State) (m : Mem) :
    (s.setShadow m).fb = s.fb := rfl

@[simp] theorem State.setShadow_dirty (s : State) (m : Mem) :
    (s.setShadow m).dirty = s.dirty := rfl

@[simp] theorem State.setShadow_shadow (s : State) (m : Mem) :
    (s.setShadow m).shadow = m := rfl

@[simp] theorem State.setShadow_trace (s : State) (m : Mem) :
    (s.setShadow m).trace = s.trace := rfl

@[simp] theorem State.setShadow_rx (s : State) (m : Mem) :
    (s.setShadow m).rx = s.rx := rfl

@[simp] theorem State.setShadow_panel (s : State) (m : Mem) :
    (s.setShadow m).panel = s.panel := rfl

@[simp] theorem State.setShadow_requests (s : State) (m : Mem) :
    (s.setShadow m).requests = s.requests := rfl

@[simp] theorem State.setShadow_result (s : State) (m : Mem) :
    (s.setShadow m).result = s.result := rfl

@[simp] theorem State.setShadow_draws (s : State) (m : Mem) :
    (s.setShadow m).draws = s.draws := rfl

@[simp] theorem State.setShadow_setShadow (s : State) (m m' : Mem) :
    (s.setShadow m).setShadow m' = s.setShadow m' := rfl

@[simp] theorem State.setShadow_self (s : State) :
    s.setShadow s.shadow = s := rfl

/-! ### `State.setRequests` -/

@[simp] theorem State.setRequests_cfg (s : State) (rs : List Request) :
    (s.setRequests rs).cfg = s.cfg := rfl

@[simp] theorem State.setRequests_pins (s : State) (rs : List Request) :
    (s.setRequests rs).pins = s.pins := rfl

@[simp] theorem State.setRequests_addr (s : State) (rs : List Request) :
    (s.setRequests rs).addr = s.addr := rfl

@[simp] theorem State.setRequests_delay (s : State) (rs : List Request) :
    (s.setRequests rs).delay = s.delay := rfl

@[simp] theorem State.setRequests_busOpen (s : State) (rs : List Request) :
    (s.setRequests rs).busOpen = s.busOpen := rfl

@[simp] theorem State.setRequests_seq (s : State) (rs : List Request) :
    (s.setRequests rs).seq = s.seq := rfl

@[simp] theorem State.setRequests_fb (s : State) (rs : List Request) :
    (s.setRequests rs).fb = s.fb := rfl

@[simp] theorem State.setRequests_dirty (s : State) (rs : List Request) :
    (s.setRequests rs).dirty = s.dirty := rfl

@[simp] theorem State.setRequests_shadow (s : State) (rs : List Request) :
    (s.setRequests rs).shadow = s.shadow := rfl

@[simp] theorem State.setRequests_trace (s : State) (rs : List Request) :
    (s.setRequests rs).trace = s.trace := rfl

@[simp] theorem State.setRequests_rx (s : State) (rs : List Request) :
    (s.setRequests rs).rx = s.rx := rfl

@[simp] theorem State.setRequests_panel (s : State) (rs : List Request) :
    (s.setRequests rs).panel = s.panel := rfl

@[simp] theorem State.setRequests_requests (s : State) (rs : List Request) :
    (s.setRequests rs).requests = rs := rfl

@[simp] theorem State.setRequests_result (s : State) (rs : List Request) :
    (s.setRequests rs).result = s.result := rfl

@[simp] theorem State.setRequests_draws (s : State) (rs : List Request) :
    (s.setRequests rs).draws = s.draws := rfl

@[simp] theorem State.setRequests_setRequests (s : State) (rs rs' : List Request) :
    (s.setRequests rs).setRequests rs' = s.setRequests rs' := rfl

@[simp] theorem State.setRequests_self (s : State) :
    s.setRequests s.requests = s := rfl

/-! ### `State.setResult` -/

@[simp] theorem State.setResult_cfg (s : State) (r : Result) :
    (s.setResult r).cfg = s.cfg := rfl

@[simp] theorem State.setResult_pins (s : State) (r : Result) :
    (s.setResult r).pins = s.pins := rfl

@[simp] theorem State.setResult_addr (s : State) (r : Result) :
    (s.setResult r).addr = s.addr := rfl

@[simp] theorem State.setResult_delay (s : State) (r : Result) :
    (s.setResult r).delay = s.delay := rfl

@[simp] theorem State.setResult_busOpen (s : State) (r : Result) :
    (s.setResult r).busOpen = s.busOpen := rfl

@[simp] theorem State.setResult_seq (s : State) (r : Result) :
    (s.setResult r).seq = s.seq := rfl

@[simp] theorem State.setResult_fb (s : State) (r : Result) :
    (s.setResult r).fb = s.fb := rfl

@[simp] theorem State.setResult_dirty (s : State) (r : Result) :
    (s.setResult r).dirty = s.dirty := rfl

@[simp] theorem State.setResult_shadow (s : State) (r : Result) :
    (s.setResult r).shadow = s.shadow := rfl

@[simp] theorem State.setResult_trace (s : State) (r : Result) :
    (s.setResult r).trace = s.trace := rfl

@[simp] theorem State.setResult_rx (s : State) (r : Result) :
    (s.setResult r).rx = s.rx := rfl

@[simp] theorem State.setResult_panel (s : State) (r : Result) :
    (s.setResult r).panel = s.panel := rfl

@[simp] theorem State.setResult_requests (s : State) (r : Result) :
    (s.setResult r).requests = s.requests := rfl

@[simp] theorem State.setResult_result (s : State) (r : Result) :
    (s.setResult r).result = r := rfl

@[simp] theorem State.setResult_draws (s : State) (r : Result) :
    (s.setResult r).draws = s.draws := rfl

@[simp] theorem State.setResult_setResult (s : State) (r r' : Result) :
    (s.setResult r).setResult r' = s.setResult r' := rfl

@[simp] theorem State.setResult_self (s : State) :
    s.setResult s.result = s := rfl

/-! ### `State.countDraw` -/

@[simp] theorem State.countDraw_cfg (s : State) :
    s.countDraw.cfg = s.cfg := rfl

@[simp] theorem State.countDraw_pins (s : State) :
    s.countDraw.pins = s.pins := rfl

@[simp] theorem State.countDraw_addr (s : State) :
    s.countDraw.addr = s.addr := rfl

@[simp] theorem State.countDraw_delay (s : State) :
    s.countDraw.delay = s.delay := rfl

@[simp] theorem State.countDraw_busOpen (s : State) :
    s.countDraw.busOpen = s.busOpen := rfl

@[simp] theorem State.countDraw_seq (s : State) :
    s.countDraw.seq = s.seq := rfl

@[simp] theorem State.countDraw_fb (s : State) :
    s.countDraw.fb = s.fb := rfl

@[simp] theorem State.countDraw_dirty (s : State) :
    s.countDraw.dirty = s.dirty := rfl

@[simp] theorem State.countDraw_shadow (s : State) :
    s.countDraw.shadow = s.shadow := rfl

@[simp] theorem State.countDraw_trace (s : State) :
    s.countDraw.trace = s.trace := rfl

@[simp] theorem State.countDraw_rx (s : State) :
    s.countDraw.rx = s.rx := rfl

@[simp] theorem State.countDraw_panel (s : State) :
    s.countDraw.panel = s.panel := rfl

@[simp] theorem State.countDraw_requests (s : State) :
    s.countDraw.requests = s.requests := rfl

@[simp] theorem State.countDraw_result (s : State) :
    s.countDraw.result = s.result := rfl

@[simp] theorem State.countDraw_draws (s : State) :
    s.countDraw.draws = s.draws + 1 := rfl

/-! ### `State.perform` -/

@[simp] theorem State.perform_cfg (s : State) (es : List Event) :
    (s.perform es).cfg = s.cfg := rfl

@[simp] theorem State.perform_pins (s : State) (es : List Event) :
    (s.perform es).pins = s.pins.applyAll es := rfl

@[simp] theorem State.perform_addr (s : State) (es : List Event) :
    (s.perform es).addr = s.addr := rfl

@[simp] theorem State.perform_delay (s : State) (es : List Event) :
    (s.perform es).delay = s.delay := rfl

@[simp] theorem State.perform_busOpen (s : State) (es : List Event) :
    (s.perform es).busOpen = s.busOpen := rfl

@[simp] theorem State.perform_seq (s : State) (es : List Event) :
    (s.perform es).seq = s.seq.advance es.length := rfl

@[simp] theorem State.perform_fb (s : State) (es : List Event) :
    (s.perform es).fb = s.fb := rfl

@[simp] theorem State.perform_dirty (s : State) (es : List Event) :
    (s.perform es).dirty = s.dirty := rfl

@[simp] theorem State.perform_shadow (s : State) (es : List Event) :
    (s.perform es).shadow = s.shadow := rfl

@[simp] theorem State.perform_trace (s : State) (es : List Event) :
    (s.perform es).trace = s.trace ++ es := rfl

@[simp] theorem State.perform_rx (s : State) (es : List Event) :
    (s.perform es).rx = s.rx.after s.pins es := rfl

@[simp] theorem State.perform_panel (s : State) (es : List Event) :
    (s.perform es).panel = s.panelAfter es := rfl

@[simp] theorem State.perform_requests (s : State) (es : List Event) :
    (s.perform es).requests = s.requests := rfl

@[simp] theorem State.perform_result (s : State) (es : List Event) :
    (s.perform es).result = s.result := rfl

@[simp] theorem State.perform_draws (s : State) (es : List Event) :
    (s.perform es).draws = s.draws := rfl

/-! ### `State.sendBytes` -/

@[simp] theorem State.sendBytes_cfg (s : State) (bs : List Byte) :
    (s.sendBytes bs).cfg = s.cfg := rfl

@[simp] theorem State.sendBytes_pins (s : State) (bs : List Byte) :
    (s.sendBytes bs).pins = s.pins.applyAll (s.bytesEvents bs) := rfl

@[simp] theorem State.sendBytes_addr (s : State) (bs : List Byte) :
    (s.sendBytes bs).addr = s.addr := rfl

@[simp] theorem State.sendBytes_delay (s : State) (bs : List Byte) :
    (s.sendBytes bs).delay = s.delay := rfl

@[simp] theorem State.sendBytes_busOpen (s : State) (bs : List Byte) :
    (s.sendBytes bs).busOpen = s.busOpen := rfl

@[simp] theorem State.sendBytes_seq (s : State) (bs : List Byte) :
    (s.sendBytes bs).seq = s.seq.advance (s.bytesEvents bs).length := rfl

@[simp] theorem State.sendBytes_fb (s : State) (bs : List Byte) :
    (s.sendBytes bs).fb = s.fb := rfl

@[simp] theorem State.sendBytes_dirty (s : State) (bs : List Byte) :
    (s.sendBytes bs).dirty = s.dirty := rfl

@[simp] theorem State.sendBytes_shadow (s : State) (bs : List Byte) :
    (s.sendBytes bs).shadow = s.shadow := rfl

@[simp] theorem State.sendBytes_trace (s : State) (bs : List Byte) :
    (s.sendBytes bs).trace = s.trace ++ s.bytesEvents bs := rfl

@[simp] theorem State.sendBytes_rx (s : State) (bs : List Byte) :
    (s.sendBytes bs).rx = s.rx.after s.pins (s.bytesEvents bs) := rfl

@[simp] theorem State.sendBytes_panel (s : State) (bs : List Byte) :
    (s.sendBytes bs).panel = s.panelAfter (s.bytesEvents bs) := rfl

@[simp] theorem State.sendBytes_requests (s : State) (bs : List Byte) :
    (s.sendBytes bs).requests = s.requests := rfl

@[simp] theorem State.sendBytes_result (s : State) (bs : List Byte) :
    (s.sendBytes bs).result = s.result := rfl

@[simp] theorem State.sendBytes_draws (s : State) (bs : List Byte) :
    (s.sendBytes bs).draws = s.draws := rfl

/-! ### `State.fbStore` -/

@[simp] theorem State.fbStore_cfg (s : State) (a : Nat) (vs : List Byte) :
    (s.fbStore a vs).cfg = s.cfg := rfl

@[simp] theorem State.fbStore_pins (s : State) (a : Nat) (vs : List Byte) :
    (s.fbStore a vs).pins = s.pins := rfl

@[simp] theorem State.fbStore_addr (s : State) (a : Nat) (vs : List Byte) :
    (s.fbStore a vs).addr = s.addr := rfl

@[simp] theorem State.fbStore_delay (s : State) (a : Nat) (vs : List Byte) :
    (s.fbStore a vs).delay = s.delay := rfl

@[simp] theorem State.fbStore_busOpen (s : State) (a : Nat) (vs : List Byte) :
    (s.fbStore a vs).busOpen = s.busOpen := rfl

@[simp] theorem State.fbStore_seq (s : State) (a : Nat) (vs : List Byte) :
    (s.fbStore a vs).seq = s.seq := rfl

@[simp] theorem State.fbStore_fb (s : State) (a : Nat) (vs : List Byte) :
    (s.fbStore a vs).fb = fbWrite s.fb a vs := rfl

@[simp] theorem State.fbStore_dirty (s : State) (a : Nat) (vs : List Byte) :
    (s.fbStore a vs).dirty = s.dirty := rfl

@[simp] theorem State.fbStore_shadow (s : State) (a : Nat) (vs : List Byte) :
    (s.fbStore a vs).shadow = s.shadow := rfl

@[simp] theorem State.fbStore_trace (s : State) (a : Nat) (vs : List Byte) :
    (s.fbStore a vs).trace = s.trace := rfl

@[simp] theorem State.fbStore_rx (s : State) (a : Nat) (vs : List Byte) :
    (s.fbStore a vs).rx = s.rx := rfl

@[simp] theorem State.fbStore_panel (s : State) (a : Nat) (vs : List Byte) :
    (s.fbStore a vs).panel = s.panel := rfl

@[simp] theorem State.fbStore_requests (s : State) (a : Nat) (vs : List Byte) :
    (s.fbStore a vs).requests = s.requests := rfl

@[simp] theorem State.fbStore_result (s : State) (a : Nat) (vs : List Byte) :
    (s.fbStore a vs).result = s.result := rfl

@[simp] theorem State.fbStore_draws (s : State) (a : Nat) (vs : List Byte) :
    (s.fbStore a vs).draws = s.draws := rfl

/-! ### `State.markPages` -/

@[simp] theorem State.markPages_cfg (s : State) (lo hi : Nat) :
    (s.markPages lo hi).cfg = s.cfg := by
  unfold State.markPages; split <;> rfl

@[simp] theorem State.markPages_pins (s : State) (lo hi : Nat) :
    (s.markPages lo hi).pins = s.pins := by
  unfold State.markPages; split <;> rfl

@[simp] theorem State.markPages_addr (s : State) (lo hi : Nat) :
    (s.markPages lo hi).addr = s.addr := by
  unfold State.markPages; split <;> rfl

@[simp] theorem State.markPages_delay (s : State) (lo hi : Nat) :
    (s.markPages lo hi).delay = s.delay := by
  unfold State.markPages; split <;> rfl

@[simp] theorem State.markPages_busOpen (s : State) (lo hi : Nat) :
    (s.markPages lo hi).busOpen = s.busOpen := by
  unfold State.markPages; split <;> rfl

@[simp] theorem State.markPages_seq (s : State) (lo hi : Nat) :
    (s.markPages lo hi).seq = s.seq := by
  unfold State.markPages; split <;> rfl

@[simp] theorem State.markPages_fb (s : State) (lo hi : Nat) :
    (s.markPages lo hi).fb = s.fb := by
  unfold State.markPages; split <;> rfl

@[simp] theorem State.markPages_shadow (s : State) (lo hi : Nat) :
    (s.markPages lo hi).shadow = s.shadow := by
  unfold State.markPages; split <;> rfl

@[simp] theorem State.markPages_trace (s : State) (lo hi : Nat) :
    (s.markPages lo hi).trace = s.trace := by
  unfold State.markPages; split <;> rfl

@[simp] theorem State.markPages_rx (s : State) (lo hi : Nat) :
    (s.markPages lo hi).rx = s.rx := by
  unfold State.markPages; split <;> rfl

@[simp] theorem State.markPages_panel (s : State) (lo hi : Nat) :
    (s.markPages lo hi).panel = s.panel := by
  unfold State.markPages; split <;> rfl

@[simp] theorem State.markPages_requests (s : State) (lo hi : Nat) :
    (s.markPages lo hi).requests = s.requests := by
  unfold State.markPages; split <;> rfl

@[simp] theorem State.markPages_result (s : State) (lo hi : Nat) :
    (s.markPages lo hi).result = s.result := by
  unfold State.markPages; split <;> rfl

@[simp] theorem State.markPages_draws (s : State) (lo hi : Nat) :
    (s.markPages lo hi).draws = s.draws := by
  unfold State.markPages; split <;> rfl

/-! ### `State.markAll` -/

@[simp] theorem State.markAll_cfg (s : State) :
    (s.markAll).cfg = s.cfg := by
  unfold State.markAll; split <;> rfl

@[simp] theorem State.markAll_pins (s : State) :
    (s.markAll).pins = s.pins := by
  unfold State.markAll; split <;> rfl

@[simp] theorem State.markAll_addr (s : State) :
    (s.markAll).addr = s.addr := by
  unfold State.markAll; split <;> rfl

@[simp] theorem State.markAll_delay (s : State) :
    (s.markAll).delay = s.delay := by
  unfold State.markAll; split <;> rfl

@[simp] theorem State.markAll_busOpen (s : State) :
    (s.markAll).busOpen = s.busOpen := by
  unfold State.markAll; split <;> rfl

@[simp] theorem State.markAll_seq (s : State) :
    (s.markAll).seq = s.seq := by
  unfold State.markAll; split <;> rfl

@[simp] theorem State.markAll_fb (s : State) :
    (s.markAll).fb = s.fb := by
  unfold State.markAll; split <;> rfl

@[simp] theorem State.markAll_trace (s : State) :
    (s.markAll).trace = s.trace := by
  unfold State.markAll; split <;> rfl

@[simp] theorem State.markAll_rx (s : State) :
    (s.markAll).rx = s.rx := by
  unfold State.markAll; split <;> rfl

@[simp] theorem State.markAll_panel (s : State) :
    (s.markAll).panel = s.panel := by
  unfold State.markAll; split <;> rfl

@[simp] theorem State.markAll_requests (s : State) :
    (s.markAll).requests = s.requests := by
  unfold State.markAll; split <;> rfl

@[simp] theorem State.markAll_result (s : State) :
    (s.markAll).result = s.result := by
  unfold State.markAll; split <;> rfl

@[simp] theorem State.markAll_draws (s : State) :
    (s.markAll).draws = s.draws := by
  unfold State.markAll; split <;> rfl

/-! ### `State.cleanPage` -/

@[simp] theorem State.cleanPage_cfg (s : State) (p : Fin 8) :
    (s.cleanPage p).cfg = s.cfg := by
  unfold State.cleanPage; split <;> rfl

@[simp] theorem State.cleanPage_pins (s : State) (p : Fin 8) :
    (s.cleanPage p).pins = s.pins := by
  unfold State.cleanPage; split <;> rfl

@[simp] theorem State.cleanPage_addr (s : State) (p : Fin 8) :
    (s.cleanPage p).addr = s.addr := by
  unfold State.cleanPage; split <;> rfl

@[simp] theorem State.cleanPage_delay (s : State) (p : Fin 8) :
    (s.cleanPage p).delay = s.delay := by
  unfold State.cleanPage; split <;> rfl

@[simp] theorem State.cleanPage_busOpen (s : State) (p : Fin 8) :
    (s.cleanPage p).busOpen = s.busOpen := by
  unfold State.cleanPage; split <;> rfl

@[simp] theorem State.cleanPage_seq (s : State) (p : Fin 8) :
    (s.cleanPage p).seq = s.seq := by
  unfold State.cleanPage; split <;> rfl

@[simp] theorem State.cleanPage_fb (s : State) (p : Fin 8) :
    (s.cleanPage p).fb = s.fb := by
  unfold State.cleanPage; split <;> rfl

@[simp] theorem State.cleanPage_trace (s : State) (p : Fin 8) :
    (s.cleanPage p).trace = s.trace := by
  unfold State.cleanPage; split <;> rfl

@[simp] theorem State.cleanPage_rx (s : State) (p : Fin 8) :
    (s.cleanPage p).rx = s.rx := by
  unfold State.cleanPage; split <;> rfl

@[simp] theorem State.cleanPage_panel (s : State) (p : Fin 8) :
    (s.cleanPage p).panel = s.panel := by
  unfold State.cleanPage; split <;> rfl

@[simp] theorem State.cleanPage_requests (s : State) (p : Fin 8) :
    (s.cleanPage p).requests = s.requests := by
  unfold State.cleanPage; split <;> rfl

@[simp] theorem State.cleanPage_result (s : State) (p : Fin 8) :
    (s.cleanPage p).result = s.result := by
  unfold State.cleanPage; split <;> rfl

@[simp] theorem State.cleanPage_draws (s : State) (p : Fin 8) :
    (s.cleanPage p).draws = s.draws := by
  unfold State.cleanPage; split <;> rfl

/-! ### Marking and cleaning, by granularity -/

theorem State.markPages_page {s : State} (h : s.cfg.variant.granularity = .page) (lo hi : Nat) :
    s.markPages lo hi = s.setDirty (markRange s.dirty lo hi) := by
  simp [State.markPages, h]

theorem State.markPages_byte {s : State} (h : s.cfg.variant.granularity = .byte) (lo hi : Nat) :
    s.markPages lo hi = s := by
  simp [State.markPages, h]

theorem State.markAll_page {s : State} (h : s.cfg.variant.granularity = .page) :
    s.markAll = s.setDirty (markRange s.dirty 0 7) := by
  simp [State.markAll, h]

theorem State.markAll_byte {s : State} (h : s.cfg.variant.granularity = .byte) :
    s.markAll = s.setShadow [] := by
  simp [State.markAll, h]

theorem State.cleanPage_page {s : State} (h : s.cfg.variant.granularity = .page) (p : Fin 8) :
    s.cleanPage p = s.setDirty (Vector.ofFn fun q => s.dirty[q] && decide (q ≠ p)) := by
  simp [State.cleanPage, h]

theorem State.cleanPage_byte {s : State} (h : s.cfg.variant.granularity = .byte) (p : Fin 8) :
    s.cleanPage p = s.setShadow (knownWrite s.shadow (pageStride * p.val) (s.pageRow p.val)) := by
  simp [State.cleanPage, h]

@[simp] theorem markRange_get (dirty : Vector Bool 8) (lo hi : Nat) (p : Fin 8) :
    (markRange dirty lo hi)[p] = (dirty[p] || decide (lo ≤ p.val ∧ p.val ≤ hi)) := by
  simp [markRange]

/-! ### Sequencing -/

@[simp] theorem andThen_next (s : State) (f : State → Out) : andThen (.next s) f = f s := rfl

@[simp] theorem andThen_fault (r : Fault) (f : State → Out) : andThen (.fault r) f = .fault r := rfl

@[simp] theorem andThen_refused (r : Refusal) (f : State → Out) : andThen (.refused r) f = .refused r := rfl

/-- A sequence that answers a next state went through one. -/
theorem andThen_eq_next {o : Out} {f : State → Out} {t : State} :
    andThen o f = .next t ↔ ∃ u, o = .next u ∧ f u = .next t := by
  cases o <;> simp

@[simp] theorem Seq.advance_idle (n : Nat) : Seq.idle.advance n = .idle := rfl

@[simp] theorem Seq.advance_running (op : Instr) (i n : Nat) :
    (Seq.running op i).advance n = .running op (i + n) := rfl

@[simp] theorem Seq.advance_zero (q : Seq) : q.advance 0 = q := by cases q <;> rfl

theorem Seq.advance_add (q : Seq) (m n : Nat) : q.advance (m + n) = (q.advance m).advance n := by
  cases q <;> simp [Nat.add_assoc]

end Sys2Proof.Machine
end

