-- ==== Sys2Proof/Laws/Wire.lean ====
section
/-!
SUPPORT. Performing events: in one go or one at a time; and what the observer of spec/30_encoding.md R73 makes of each cell.
-/

namespace Sys2Proof.Machine

/-! ### Lists of events -/

@[simp] theorem Pins.applyAll_nil (p : Pins) : p.applyAll [] = p := rfl

@[simp] theorem Pins.applyAll_cons (p : Pins) (e : Event) (es : List Event) :
    p.applyAll (e :: es) = (p.apply e).applyAll es := rfl

theorem Pins.applyAll_append (p : Pins) (es fs : List Event) :
    p.applyAll (es ++ fs) = (p.applyAll es).applyAll fs := List.foldl_append

@[simp] theorem Rx.after_nil (rx : Rx) (p : Pins) : rx.after p [] = rx := rfl

@[simp] theorem Rx.after_cons (rx : Rx) (p : Pins) (e : Event) (es : List Event) :
    rx.after p (e :: es) = (rx.see p (p.apply e)).after (p.apply e) es := rfl

theorem Rx.after_append (rx : Rx) (p : Pins) (es fs : List Event) :
    rx.after p (es ++ fs) = (rx.after p es).after (p.applyAll es) fs := by
  induction es generalizing rx p with
  | nil => rfl
  | cons e es ih => simp [ih]

@[simp] theorem Rx.frames_nil (rx : Rx) (p : Pins) : rx.frames p [] = [] := rfl

theorem Rx.frames_cons (rx : Rx) (p : Pins) (e : Event) (es : List Event) :
    rx.frames p (e :: es)
      = (rx.completes p (p.apply e)).toList ++ (rx.see p (p.apply e)).frames (p.apply e) es := by
  simp only [Rx.frames]; split <;> simp_all

theorem Rx.frames_append (rx : Rx) (p : Pins) (es fs : List Event) :
    rx.frames p (es ++ fs) = rx.frames p es ++ (rx.after p es).frames (p.applyAll es) fs := by
  induction es generalizing rx p with
  | nil => simp
  | cons e es ih => simp [Rx.frames_cons, ih]

@[simp] theorem Panel.receive_address (cfg : Config) (p : Panel) (f : List Byte) :
    (Panel.receive cfg p f).address = p.address := by
  have hc : ∀ (q : Panel) (c : Byte), (q.command c).address = q.address := by
    intro q c; unfold Panel.command; repeat (first | rfl | split)
  have hv : ∀ (q : Panel) (c v : Byte), (q.valued c v).address = q.address := by
    intro q c v; unfold Panel.valued; split <;> rfl
  have hd : ∀ (q : Panel) (d : Byte), (q.dataByte d).address = q.address := by
    intro q d; unfold Panel.dataByte; dsimp only; split <;> rfl
  have hds : ∀ (ds : List Byte) (q : Panel), (q.dataBytes ds).address = q.address := by
    intro ds
    induction ds with
    | nil => intro q; rfl
    | cons d ds ih => intro q; exact (ih _).trans (hd q d)
  have hcs : ∀ (n : Nat) (bs : List Byte) (q : Panel), bs.length ≤ n → (q.commands cfg bs).address = q.address := by
    intro n
    induction n with
    | zero => intro bs q h; cases bs with | nil => rfl | cons => simp at h
    | succ n ih =>
      intro bs q h
      cases bs with
      | nil => rfl
      | cons c rest =>
        simp only [List.length_cons] at h
        unfold Panel.commands
        split
        · cases rest with
          | nil => rfl
          | cons v rest' => exact (ih rest' _ (by simp at h; omega)).trans (hv q c v)
        · exact (ih rest _ (by omega)).trans (hc q c)
  unfold Panel.receive Panel.initialisation
  repeat (first | rfl | exact hcs _ _ _ (Nat.le_refl _) | exact hds _ _ | (rw [hc, hc]) | split)

theorem State.panelAfter_append (s : State) (es fs : List Event) :
    s.panelAfter (es ++ fs) = (s.perform es).panelAfter fs := by
  simp [State.panelAfter, Rx.frames_append, List.foldl_append]

/-- Performing one list after another is performing them as one (R17, R90, R105). -/
theorem State.perform_append (s : State) (es fs : List Event) :
    s.perform (es ++ fs) = (s.perform es).perform fs := by
  simp [State.perform, State.panelAfter, Pins.applyAll_append, Rx.after_append, Rx.frames_append, Seq.advance_add,
    List.foldl_append]

@[simp] theorem State.perform_nil (s : State) : s.perform [] = s := by
  simp [State.perform, State.panelAfter]

@[simp] theorem bytesWave_nil (mode : AckMode) (d : Nat) : bytesWave mode d [] = [] := rfl

@[simp] theorem bytesWave_cons (mode : AckMode) (d : Nat) (b : Byte) (bs : List Byte) :
    bytesWave mode d (b :: bs) = byteWave mode d b ++ bytesWave mode d bs := rfl

theorem bytesWave_append (mode : AckMode) (d : Nat) (u v : List Byte) :
    bytesWave mode d (u ++ v) = bytesWave mode d u ++ bytesWave mode d v := by
  simp [bytesWave]

/-- What performing events is, in the terms of the claims. -/
theorem State.emits_perform (s : State) (es : List Event) : s.Emits (s.perform es) es := ⟨rfl, rfl, rfl, rfl⟩

/-- What performing events leaves alone, in the terms of the claims. -/
theorem State.keepsStore_perform (s : State) (es : List Event) : s.KeepsStore (s.perform es) :=
  ⟨rfl, rfl, rfl, rfl, fun _ => rfl, rfl, rfl, rfl, rfl, rfl⟩

/-! ### The observer over a cell -/

/-- The level a bit stands for (R51, D1). -/
def levelOf (b : Bool) : Level := if b then .high else .low

/-- A bit cell leaves the data latch at the bit and the clock low (R95). -/
theorem Pins.applyAll_bitCell {p : Pins} (h : p.Clocking) (d : Nat) (b : Bool) :
    p.applyAll (bitCell d b) = { sda := { latch := levelOf b, dir := .output }, scl := { latch := .low, dir := .output } } := by
  obtain ⟨⟨l, dir⟩, scl⟩ := p
  obtain ⟨rfl, rfl⟩ := h
  cases b <;> rfl

/-- A bit cell is one sampled bit (R51, R73). -/
theorem Rx.after_bitCell {rx : Rx} (ha : rx.active = true) {p : Pins} (h : p.Clocking) (d : Nat) (b : Bool) :
    rx.after p (bitCell d b) = rx.sample b := by
  obtain ⟨⟨l, dir⟩, scl⟩ := p
  obtain ⟨rfl, rfl⟩ := h
  obtain ⟨act, n, sh, bs⟩ := rx
  cases ha
  cases l <;> cases b <;> rfl

/-- A bit cell completes no frame. -/
theorem Rx.frames_bitCell (rx : Rx) {p : Pins} (h : p.Clocking) (d : Nat) (b : Bool) :
    rx.frames p (bitCell d b) = [] := by
  obtain ⟨⟨l, dir⟩, scl⟩ := p
  obtain ⟨rfl, rfl⟩ := h
  obtain ⟨act, n, sh, bs⟩ := rx
  cases l <;> cases b <;> rfl

/-- An ACK cell leaves both lines driven and the clock low, in every mode (R96). -/
theorem Pins.applyAll_ackCell {p : Pins} (h : p.Clocking) (mode : AckMode) (d : Nat) :
    (p.applyAll (ackCell mode d)).Clocking := by
  obtain ⟨⟨l, dir⟩, scl⟩ := p
  obtain ⟨rfl, rfl⟩ := h
  cases mode <;> exact ⟨rfl, rfl⟩

/-- The ACK cell samples a ninth bit: the byte is formed and the bit is dropped, in every mode (R52, R73). -/
theorem Rx.after_ackCell {rx : Rx} (ha : rx.active = true) (hc : rx.count = 8) {p : Pins} (h : p.Clocking)
    (mode : AckMode) (d : Nat) :
    rx.after p (ackCell mode d) = { rx with count := 0, bytes := rx.bytes ++ [rx.shift] } := by
  obtain ⟨⟨l, dir⟩, scl⟩ := p
  obtain ⟨rfl, rfl⟩ := h
  obtain ⟨act, n, sh, bs⟩ := rx
  cases ha; cases hc
  cases mode <;> cases l <;> rfl

/-- An ACK cell completes no frame. -/
theorem Rx.frames_ackCell (rx : Rx) {p : Pins} (h : p.Clocking) (mode : AckMode) (d : Nat) :
    rx.frames p (ackCell mode d) = [] := by
  obtain ⟨⟨l, dir⟩, scl⟩ := p
  obtain ⟨rfl, rfl⟩ := h
  obtain ⟨act, n, sh, bs⟩ := rx
  cases mode <;> cases l <;> rfl

/-- START from released lines: the lines driven low, whatever the latches were (R54). -/
theorem Pins.applyAll_startWave (p : Pins) (d : Nat) :
    p.applyAll (startWave d)
      = { sda := { latch := .low, dir := .output }, scl := { latch := .low, dir := .output } } := rfl

/-- START from released lines opens a frame with nothing collected (R54, R73). -/
theorem Rx.after_startWave (rx : Rx) {p : Pins} (hd : p.sda.dir = .input) (hc : p.scl.dir = .input) (d : Nat) :
    rx.after p (startWave d) = { active := true, count := 0, shift := 0#8, bytes := [] } := by
  obtain ⟨⟨l, dir⟩, ⟨l', dir'⟩⟩ := p
  cases hd; cases hc
  rfl

/-- START completes no frame. -/
theorem Rx.frames_startWave (rx : Rx) {p : Pins} (hd : p.sda.dir = .input) (hc : p.scl.dir = .input) (d : Nat) :
    rx.frames p (startWave d) = [] := by
  obtain ⟨⟨l, dir⟩, ⟨l', dir'⟩⟩ := p
  cases hd; cases hc
  rfl

/-- STOP leaves both latches high and both lines released (R55). -/
theorem Pins.applyAll_stopWave (p : Pins) (d : Nat) :
    p.applyAll (stopWave d)
      = { sda := { latch := .high, dir := .input }, scl := { latch := .high, dir := .input } } := rfl

/-- STOP closes the frame and discards the bit its clock rise samples (R55, R73). -/
theorem Rx.after_stopWave {rx : Rx} (ha : rx.active = true) {p : Pins} (h : p.Clocking) (d : Nat) :
    rx.after p (stopWave d) = Rx.quiet := by
  obtain ⟨⟨l, dir⟩, scl⟩ := p
  obtain ⟨rfl, rfl⟩ := h
  obtain ⟨act, n, sh, bs⟩ := rx
  cases ha
  cases l <;> rfl

/-- STOP after a whole number of bytes completes the frame of those bytes (R73). -/
theorem Rx.frames_stopWave {rx : Rx} (ha : rx.active = true) (hc : rx.count = 0) {p : Pins} (h : p.Clocking) (d : Nat) :
    rx.frames p (stopWave d) = [rx.bytes] := by
  obtain ⟨⟨l, dir⟩, scl⟩ := p
  obtain ⟨rfl, rfl⟩ := h
  obtain ⟨act, n, sh, bs⟩ := rx
  cases ha; cases hc
  cases l <;> rfl

/-- A frame leaves the pins as its STOP does, whatever they were (R55, R107). -/
theorem Pins.applyAll_frameWave (p : Pins) (mode : AckMode) (d : Nat) (a : BitVec 7) (bs : List Byte) :
    p.applyAll (frameWave mode d a bs)
      = { sda := { latch := .high, dir := .input }, scl := { latch := .high, dir := .input } } := by
  rw [frameWave, Pins.applyAll_append, Pins.applyAll_stopWave]

end Sys2Proof.Machine
end

