-- ==== Sys2Proof/Laws/Observe.lean ====
section
/-!
SUPPORT. What the observations of a state are after an update that does not touch what they read, one lemma each.
-/

namespace Sys2Proof.Machine

/-! ### `State.setSeq` -/

@[simp] theorem State.setSeq_fbByte (s : State) (q : Seq) (i : Nat) :
    (s.setSeq q).fbByte i = s.fbByte i := rfl

@[simp] theorem State.setSeq_shadowEntry (s : State) (q : Seq) (i : Nat) :
    (s.setSeq q).shadowEntry i = s.shadowEntry i := rfl

@[simp] theorem State.setSeq_fbRead (s : State) (q : Seq) (a n : Nat) :
    (s.setSeq q).fbRead a n = s.fbRead a n := rfl

@[simp] theorem State.setSeq_pageRow (s : State) (q : Seq) (p : Nat) :
    (s.setSeq q).pageRow p = s.pageRow p := rfl

@[simp] theorem State.setSeq_pixelBit (s : State) (q : Seq) (x y : Nat) :
    (s.setSeq q).pixelBit x y = s.pixelBit x y := rfl

@[simp] theorem State.setSeq_shadowDirty (s : State) (q : Seq) (i : Nat) :
    (s.setSeq q).shadowDirty i = s.shadowDirty i := rfl

@[simp] theorem State.setSeq_shadowPageDirty (s : State) (q : Seq) (p : Nat) :
    (s.setSeq q).shadowPageDirty p = s.shadowPageDirty p := rfl

@[simp] theorem State.setSeq_pageDirty (s : State) (q : Seq) (p : Fin 8) :
    (s.setSeq q).pageDirty p = s.pageDirty p := rfl

@[simp] theorem State.setSeq_covered (s : State) (q : Seq) (i : Nat) :
    (s.setSeq q).covered i = s.covered i := rfl

@[simp] theorem State.setSeq_bytesEvents (s : State) (q : Seq) (bs : List Byte) :
    (s.setSeq q).bytesEvents bs = s.bytesEvents bs := rfl

@[simp] theorem State.setSeq_frameEvents (s : State) (q : Seq) (bs : List Byte) :
    (s.setSeq q).frameEvents bs = s.frameEvents bs := rfl

@[simp] theorem State.setSeq_positionEvents (s : State) (q : Seq) (c p : Nat) :
    (s.setSeq q).positionEvents c p = s.positionEvents c p := rfl

@[simp] theorem State.setSeq_dataEvents (s : State) (q : Seq) (bs : List Byte) :
    (s.setSeq q).dataEvents bs = s.dataEvents bs := rfl

@[simp] theorem State.setSeq_pageEvents (s : State) (q : Seq) (p : Fin 8) :
    (s.setSeq q).pageEvents p = s.pageEvents p := rfl

@[simp] theorem State.setSeq_pixelEvents (s : State) (q : Seq) (x y : Nat) :
    (s.setSeq q).pixelEvents x y = s.pixelEvents x y := rfl

/-! ### `State.setBusOpen` -/

@[simp] theorem State.setBusOpen_fbByte (s : State) (b : Bool) (i : Nat) :
    (s.setBusOpen b).fbByte i = s.fbByte i := rfl

@[simp] theorem State.setBusOpen_shadowEntry (s : State) (b : Bool) (i : Nat) :
    (s.setBusOpen b).shadowEntry i = s.shadowEntry i := rfl

@[simp] theorem State.setBusOpen_fbRead (s : State) (b : Bool) (a n : Nat) :
    (s.setBusOpen b).fbRead a n = s.fbRead a n := rfl

@[simp] theorem State.setBusOpen_pageRow (s : State) (b : Bool) (p : Nat) :
    (s.setBusOpen b).pageRow p = s.pageRow p := rfl

@[simp] theorem State.setBusOpen_pixelBit (s : State) (b : Bool) (x y : Nat) :
    (s.setBusOpen b).pixelBit x y = s.pixelBit x y := rfl

@[simp] theorem State.setBusOpen_shadowDirty (s : State) (b : Bool) (i : Nat) :
    (s.setBusOpen b).shadowDirty i = s.shadowDirty i := rfl

@[simp] theorem State.setBusOpen_shadowPageDirty (s : State) (b : Bool) (p : Nat) :
    (s.setBusOpen b).shadowPageDirty p = s.shadowPageDirty p := rfl

@[simp] theorem State.setBusOpen_pageDirty (s : State) (b : Bool) (p : Fin 8) :
    (s.setBusOpen b).pageDirty p = s.pageDirty p := rfl

@[simp] theorem State.setBusOpen_covered (s : State) (b : Bool) (i : Nat) :
    (s.setBusOpen b).covered i = s.covered i := rfl

@[simp] theorem State.setBusOpen_bytesEvents (s : State) (b : Bool) (bs : List Byte) :
    (s.setBusOpen b).bytesEvents bs = s.bytesEvents bs := rfl

@[simp] theorem State.setBusOpen_frameEvents (s : State) (b : Bool) (bs : List Byte) :
    (s.setBusOpen b).frameEvents bs = s.frameEvents bs := rfl

@[simp] theorem State.setBusOpen_positionEvents (s : State) (b : Bool) (c p : Nat) :
    (s.setBusOpen b).positionEvents c p = s.positionEvents c p := rfl

@[simp] theorem State.setBusOpen_dataEvents (s : State) (b : Bool) (bs : List Byte) :
    (s.setBusOpen b).dataEvents bs = s.dataEvents bs := rfl

@[simp] theorem State.setBusOpen_pageEvents (s : State) (b : Bool) (p : Fin 8) :
    (s.setBusOpen b).pageEvents p = s.pageEvents p := rfl

@[simp] theorem State.setBusOpen_pixelEvents (s : State) (b : Bool) (x y : Nat) :
    (s.setBusOpen b).pixelEvents x y = s.pixelEvents x y := rfl

/-! ### `State.setResult` -/

@[simp] theorem State.setResult_fbByte (s : State) (r : Result) (i : Nat) :
    (s.setResult r).fbByte i = s.fbByte i := rfl

@[simp] theorem State.setResult_shadowEntry (s : State) (r : Result) (i : Nat) :
    (s.setResult r).shadowEntry i = s.shadowEntry i := rfl

@[simp] theorem State.setResult_fbRead (s : State) (r : Result) (a n : Nat) :
    (s.setResult r).fbRead a n = s.fbRead a n := rfl

@[simp] theorem State.setResult_pageRow (s : State) (r : Result) (p : Nat) :
    (s.setResult r).pageRow p = s.pageRow p := rfl

@[simp] theorem State.setResult_pixelBit (s : State) (r : Result) (x y : Nat) :
    (s.setResult r).pixelBit x y = s.pixelBit x y := rfl

@[simp] theorem State.setResult_shadowDirty (s : State) (r : Result) (i : Nat) :
    (s.setResult r).shadowDirty i = s.shadowDirty i := rfl

@[simp] theorem State.setResult_shadowPageDirty (s : State) (r : Result) (p : Nat) :
    (s.setResult r).shadowPageDirty p = s.shadowPageDirty p := rfl

@[simp] theorem State.setResult_pageDirty (s : State) (r : Result) (p : Fin 8) :
    (s.setResult r).pageDirty p = s.pageDirty p := rfl

@[simp] theorem State.setResult_covered (s : State) (r : Result) (i : Nat) :
    (s.setResult r).covered i = s.covered i := rfl

@[simp] theorem State.setResult_bytesEvents (s : State) (r : Result) (bs : List Byte) :
    (s.setResult r).bytesEvents bs = s.bytesEvents bs := rfl

@[simp] theorem State.setResult_frameEvents (s : State) (r : Result) (bs : List Byte) :
    (s.setResult r).frameEvents bs = s.frameEvents bs := rfl

@[simp] theorem State.setResult_positionEvents (s : State) (r : Result) (c p : Nat) :
    (s.setResult r).positionEvents c p = s.positionEvents c p := rfl

@[simp] theorem State.setResult_dataEvents (s : State) (r : Result) (bs : List Byte) :
    (s.setResult r).dataEvents bs = s.dataEvents bs := rfl

@[simp] theorem State.setResult_pageEvents (s : State) (r : Result) (p : Fin 8) :
    (s.setResult r).pageEvents p = s.pageEvents p := rfl

@[simp] theorem State.setResult_pixelEvents (s : State) (r : Result) (x y : Nat) :
    (s.setResult r).pixelEvents x y = s.pixelEvents x y := rfl

/-! ### `State.setRequests` -/

@[simp] theorem State.setRequests_fbByte (s : State) (rs : List Request) (i : Nat) :
    (s.setRequests rs).fbByte i = s.fbByte i := rfl

@[simp] theorem State.setRequests_shadowEntry (s : State) (rs : List Request) (i : Nat) :
    (s.setRequests rs).shadowEntry i = s.shadowEntry i := rfl

@[simp] theorem State.setRequests_fbRead (s : State) (rs : List Request) (a n : Nat) :
    (s.setRequests rs).fbRead a n = s.fbRead a n := rfl

@[simp] theorem State.setRequests_pageRow (s : State) (rs : List Request) (p : Nat) :
    (s.setRequests rs).pageRow p = s.pageRow p := rfl

@[simp] theorem State.setRequests_pixelBit (s : State) (rs : List Request) (x y : Nat) :
    (s.setRequests rs).pixelBit x y = s.pixelBit x y := rfl

@[simp] theorem State.setRequests_shadowDirty (s : State) (rs : List Request) (i : Nat) :
    (s.setRequests rs).shadowDirty i = s.shadowDirty i := rfl

@[simp] theorem State.setRequests_shadowPageDirty (s : State) (rs : List Request) (p : Nat) :
    (s.setRequests rs).shadowPageDirty p = s.shadowPageDirty p := rfl

@[simp] theorem State.setRequests_pageDirty (s : State) (rs : List Request) (p : Fin 8) :
    (s.setRequests rs).pageDirty p = s.pageDirty p := rfl

@[simp] theorem State.setRequests_covered (s : State) (rs : List Request) (i : Nat) :
    (s.setRequests rs).covered i = s.covered i := rfl

@[simp] theorem State.setRequests_bytesEvents (s : State) (rs : List Request) (bs : List Byte) :
    (s.setRequests rs).bytesEvents bs = s.bytesEvents bs := rfl

@[simp] theorem State.setRequests_frameEvents (s : State) (rs : List Request) (bs : List Byte) :
    (s.setRequests rs).frameEvents bs = s.frameEvents bs := rfl

@[simp] theorem State.setRequests_positionEvents (s : State) (rs : List Request) (c p : Nat) :
    (s.setRequests rs).positionEvents c p = s.positionEvents c p := rfl

@[simp] theorem State.setRequests_dataEvents (s : State) (rs : List Request) (bs : List Byte) :
    (s.setRequests rs).dataEvents bs = s.dataEvents bs := rfl

@[simp] theorem State.setRequests_pageEvents (s : State) (rs : List Request) (p : Fin 8) :
    (s.setRequests rs).pageEvents p = s.pageEvents p := rfl

@[simp] theorem State.setRequests_pixelEvents (s : State) (rs : List Request) (x y : Nat) :
    (s.setRequests rs).pixelEvents x y = s.pixelEvents x y := rfl

/-! ### `State.perform` -/

@[simp] theorem State.perform_fbByte (s : State) (es : List Event) (i : Nat) :
    (s.perform es).fbByte i = s.fbByte i := rfl

@[simp] theorem State.perform_shadowEntry (s : State) (es : List Event) (i : Nat) :
    (s.perform es).shadowEntry i = s.shadowEntry i := rfl

@[simp] theorem State.perform_fbRead (s : State) (es : List Event) (a n : Nat) :
    (s.perform es).fbRead a n = s.fbRead a n := rfl

@[simp] theorem State.perform_pageRow (s : State) (es : List Event) (p : Nat) :
    (s.perform es).pageRow p = s.pageRow p := rfl

@[simp] theorem State.perform_pixelBit (s : State) (es : List Event) (x y : Nat) :
    (s.perform es).pixelBit x y = s.pixelBit x y := rfl

@[simp] theorem State.perform_shadowDirty (s : State) (es : List Event) (i : Nat) :
    (s.perform es).shadowDirty i = s.shadowDirty i := rfl

@[simp] theorem State.perform_shadowPageDirty (s : State) (es : List Event) (p : Nat) :
    (s.perform es).shadowPageDirty p = s.shadowPageDirty p := rfl

@[simp] theorem State.perform_pageDirty (s : State) (es : List Event) (p : Fin 8) :
    (s.perform es).pageDirty p = s.pageDirty p := rfl

@[simp] theorem State.perform_covered (s : State) (es : List Event) (i : Nat) :
    (s.perform es).covered i = s.covered i := rfl

@[simp] theorem State.perform_bytesEvents (s : State) (es : List Event) (bs : List Byte) :
    (s.perform es).bytesEvents bs = s.bytesEvents bs := rfl

@[simp] theorem State.perform_frameEvents (s : State) (es : List Event) (bs : List Byte) :
    (s.perform es).frameEvents bs = s.frameEvents bs := rfl

@[simp] theorem State.perform_positionEvents (s : State) (es : List Event) (c p : Nat) :
    (s.perform es).positionEvents c p = s.positionEvents c p := rfl

@[simp] theorem State.perform_dataEvents (s : State) (es : List Event) (bs : List Byte) :
    (s.perform es).dataEvents bs = s.dataEvents bs := rfl

@[simp] theorem State.perform_pageEvents (s : State) (es : List Event) (p : Fin 8) :
    (s.perform es).pageEvents p = s.pageEvents p := rfl

@[simp] theorem State.perform_pixelEvents (s : State) (es : List Event) (x y : Nat) :
    (s.perform es).pixelEvents x y = s.pixelEvents x y := rfl

/-! ### Performing after a named update -/

/-- Performing with `SEQ` set is performing, `SEQ` advanced from what was set. -/
theorem State.perform_setSeq (s : State) (q : Seq) (es : List Event) :
    (s.setSeq q).perform es = (s.perform es).setSeq (q.advance es.length) := rfl

theorem State.perform_setBusOpen (s : State) (b : Bool) (es : List Event) :
    (s.setBusOpen b).perform es = (s.perform es).setBusOpen b := rfl

theorem State.perform_setResult (s : State) (r : Result) (es : List Event) :
    (s.setResult r).perform es = (s.perform es).setResult r := rfl

/-! ### The terms of the claims under the named updates -/

theorem State.emits_setSeq {s t : State} {es : List Event} (h : s.Emits t es) (q : Seq) : s.Emits (t.setSeq q) es := h

theorem State.emits_setBusOpen {s t : State} {es : List Event} (h : s.Emits t es) (b : Bool) :
    s.Emits (t.setBusOpen b) es := h

theorem State.emits_setResult {s t : State} {es : List Event} (h : s.Emits t es) (r : Result) :
    s.Emits (t.setResult r) es := h

theorem State.emits_from_setSeq {s t : State} {es : List Event} {q : Seq} (h : (s.setSeq q).Emits t es) :
    s.Emits t es := h

theorem State.emits_from_setAddr {s t : State} {es : List Event} {a : Option (BitVec 7)} (h : (s.setAddr a).Emits t es) :
    s.Emits t es := h

theorem State.released_setSeq {s : State} (h : s.Released) (q : Seq) : (s.setSeq q).Released := h

/-- A frame leaves both lines released, whatever they were (R55, R107). -/
theorem State.released_perform_frameWave (s : State) (mode : AckMode) (d : Nat) (a : BitVec 7) (bs : List Byte) :
    (s.perform (frameWave mode d a bs)).Released := by
  constructor <;> rw [State.perform_pins, Pins.applyAll_frameWave]

/-- One stretch of events after another. -/
theorem State.emits_trans {s t u : State} {es fs : List Event} (h : s.Emits t es) (hc : t.cfg = s.cfg)
    (h' : t.Emits u fs) : s.Emits u (es ++ fs) := by
  obtain ⟨h1, h2, h3, h4⟩ := h
  obtain ⟨k1, k2, k3, k4⟩ := h'
  refine ⟨by rw [k1, h1, List.append_assoc], by rw [k2, h2, Pins.applyAll_append], by rw [k3, h3, h2, Rx.after_append], ?_⟩
  rw [k4, State.panelAfter_append]
  simp [State.panelAfter, hc, h2, h3, h4]

theorem State.keepsStore_setSeq {s t : State} (h : s.KeepsStore t) (q : Seq) : s.KeepsStore (t.setSeq q) := h

theorem State.keepsStore_setBusOpen {s t : State} (h : s.KeepsStore t) (b : Bool) :
    s.KeepsStore (t.setBusOpen b) := h

theorem State.keepsStore_from_setSeq {s t : State} {q : Seq} (h : (s.setSeq q).KeepsStore t) : s.KeepsStore t := h

/-! ### Marking and painting, in the observations -/

@[simp] theorem State.setFb_fbByte (s : State) (m : Mem) (i : Nat) : (s.setFb m).fbByte i = fbLookup m i := rfl

@[simp] theorem State.setShadow_shadowEntry (s : State) (m : Mem) (i : Nat) :
    (s.setShadow m).shadowEntry i = m.lookup i := rfl

@[simp] theorem State.setShadow_fbByte (s : State) (m : Mem) (i : Nat) : (s.setShadow m).fbByte i = s.fbByte i := rfl

@[simp] theorem State.setDirty_fbByte (s : State) (d : Vector Bool 8) (i : Nat) :
    (s.setDirty d).fbByte i = s.fbByte i := rfl

@[simp] theorem State.setDirty_shadowEntry (s : State) (d : Vector Bool 8) (i : Nat) :
    (s.setDirty d).shadowEntry i = s.shadowEntry i := rfl

@[simp] theorem State.fbStore_shadowEntry (s : State) (a : Nat) (vs : List Byte) (i : Nat) :
    (s.fbStore a vs).shadowEntry i = s.shadowEntry i := rfl

@[simp] theorem State.fbStore_fbByte (s : State) (a : Nat) (vs : List Byte) (i : Nat) :
    (s.fbStore a vs).fbByte i = fbLookup (fbWrite s.fb a vs) i := rfl

@[simp] theorem State.markPages_fbByte (s : State) (lo hi i : Nat) : (s.markPages lo hi).fbByte i = s.fbByte i := by
  simp [State.fbByte]

@[simp] theorem State.markPages_shadowEntry (s : State) (lo hi i : Nat) :
    (s.markPages lo hi).shadowEntry i = s.shadowEntry i := by
  simp [State.shadowEntry]

@[simp] theorem State.markAll_fbByte (s : State) (i : Nat) : s.markAll.fbByte i = s.fbByte i := by
  simp [State.fbByte]

@[simp] theorem State.cleanPage_fbByte (s : State) (p : Fin 8) (i : Nat) :
    (s.cleanPage p).fbByte i = s.fbByte i := by
  simp [State.fbByte]

end Sys2Proof.Machine
end

