-- ==== Sys2Proof/Laws/Transport.lean ====
section
/-!
SUPPORT. What each shared operation answers, said once: a frame, a transaction, a position, a data block, one page of a
flush, one immediate byte, and the call of a public operation.
-/

namespace Sys2Proof.Machine

/-- `begin`, `writeBytes`, `end` with no frame open are one list of events, and the bus is closed again (R101, R105). -/
theorem opFrame_closed {s : State} (h : s.busOpen = false) (a : BitVec 7) (bs : List Byte) :
    opFrame a bs s = .next (s.perform (frameWave s.cfg.ackMode s.delay a bs)) := by
  have ht : bs.take bs.length = bs := List.take_length
  simp [opFrame, opBegin, opWriteBytes, opEnd, h, ht, State.sendBytes, State.bytesEvents, frameWave,
    State.perform_append]
  simp [State.perform, State.setBusOpen, State.panelAfter, h]

theorem opFrame_open {s : State} (h : s.busOpen = true) (a : BitVec 7) (bs : List Byte) :
    opFrame a bs s = .refused .beginWhileOpen := by
  simp [opFrame, opBegin, h]

/-- A transaction with `ADDR` set and no frame open (R106). -/
theorem opTransaction_closed {s : State} (h : s.busOpen = false) {a : BitVec 7} (ha : s.addr = some a)
    (bs : List Byte) : opTransaction bs s = .next (s.perform (s.frameEvents bs)) := by
  simp [opTransaction, State.frameEvents, ha, opFrame_closed h]

/-- Everything a transaction can do when it answers (R106). -/
theorem opTransaction_cases {s t : State} {bs : List Byte} (h : opTransaction bs s = .next t) :
    (∃ a, s.addr = some a) ∧ s.busOpen = false ∧ t = s.perform (s.frameEvents bs) := by
  cases ha : s.addr with
  | none => simp [opTransaction, ha] at h
  | some a =>
    cases hb : s.busOpen with
    | true => simp [opTransaction, ha, opFrame_open hb] at h
    | false =>
      rw [opTransaction_closed hb ha] at h
      exact ⟨⟨a, rfl⟩, rfl, by injection h with h; exact h.symm⟩

/-- Everything a position can do when it answers (R117). -/
theorem opSetPosition_cases {s t : State} {column page : Int} (h : opSetPosition column page s = .next t) :
    (0 ≤ column ∧ column ≤ 127 ∧ 0 ≤ page ∧ page ≤ 7) ∧ (∃ a, s.addr = some a) ∧ s.busOpen = false
      ∧ t = s.perform (s.positionEvents column.toNat page.toNat) := by
  unfold opSetPosition at h
  split at h
  · next hr => exact ⟨hr, opTransaction_cases h⟩
  · simp at h

/-- A position inside the panel, with `ADDR` set and no frame open (R117). -/
theorem opSetPosition_closed {s : State} (h : s.busOpen = false) {a : BitVec 7} (ha : s.addr = some a)
    {column page : Nat} (hc : column ≤ 127) (hp : page ≤ 7) :
    opSetPosition column page s = .next (s.perform (s.positionEvents column page)) := by
  have hr : (0 : Int) ≤ column ∧ (column : Int) ≤ 127 ∧ (0 : Int) ≤ page ∧ (page : Int) ≤ 7 := by omega
  simp [opSetPosition, hr, opTransaction_closed h ha, State.positionEvents]

/-- Everything a data block can do when it answers (R118). -/
theorem opWriteDataBlock_cases {s t : State} {buffer : List Byte} {length : Nat}
    (h : opWriteDataBlock buffer length s = .next t) :
    length ≤ buffer.length ∧ (∃ a, s.addr = some a) ∧ s.busOpen = false
      ∧ t = s.perform (s.dataEvents (buffer.take length)) := by
  unfold opWriteDataBlock at h
  split at h
  · simp at h
  · next hr => exact ⟨by omega, opTransaction_cases h⟩

/-- A data block with `ADDR` set and no frame open (R118). -/
theorem opWriteDataBlock_closed {s : State} (h : s.busOpen = false) {a : BitVec 7} (ha : s.addr = some a)
    {buffer : List Byte} {length : Nat} (hl : length ≤ buffer.length) :
    opWriteDataBlock buffer length s = .next (s.perform (s.dataEvents (buffer.take length))) := by
  have hr : ¬ buffer.length < length := by omega
  simp [opWriteDataBlock, hr, opTransaction_closed h ha, State.dataEvents]

/-! ### A page's row -/

@[simp] theorem State.pageRow_length (s : State) (p : Nat) : (s.pageRow p).length = 128 := by
  simp [State.pageRow, State.fbRead, pageStride]

theorem State.pageRow_take (s : State) (p : Nat) : (s.pageRow p).take pageStride = s.pageRow p :=
  List.take_of_length_le (by simp [pageStride])

theorem State.pageRow_get (s : State) (p : Nat) {c : Nat} (h : c < 128) :
    (s.pageRow p)[c]? = some (s.fbByte (128 * p + c)) := by
  simp [State.pageRow, State.fbRead, pageStride, h]

/-! ### One page of a flush and one immediate byte -/

/-- One page of a flush with `ADDR` set and no frame open: its events, and then it is clean (R150, R151). -/
theorem flushPage_closed {s : State} (h : s.busOpen = false) {a : BitVec 7} (ha : s.addr = some a) (p : Fin 8) :
    flushPage p s
      = .next (if s.pageDirty p then (s.perform (s.pageEvents p)).cleanPage p else s) := by
  unfold flushPage
  split
  · next hd =>
    have h0 : opSetPosition 0 (p.val : Int) s = .next (s.perform (s.positionEvents 0 p.val)) :=
      opSetPosition_closed h ha (column := 0) (page := p.val) (by omega) (by omega)
    have h1 : opWriteDataBlock (s.pageRow p.val) pageStride (s.perform (s.positionEvents 0 p.val))
        = .next ((s.perform (s.positionEvents 0 p.val)).perform (s.dataEvents (s.pageRow p.val))) := by
      have := opWriteDataBlock_closed (s := s.perform (s.positionEvents 0 p.val)) h ha
        (buffer := s.pageRow p.val) (length := pageStride) (by simp [pageStride])
      simpa [State.pageRow_take] using this
    simp [h0, h1, hd, State.pageEvents, State.perform_append]
  · simp

/-- A dirty page cannot be flushed while a frame is open (R98). -/
theorem flushPage_cases {s t : State} {p : Fin 8} (h : flushPage p s = .next t) :
    t = (if s.pageDirty p then (s.perform (s.pageEvents p)).cleanPage p else s)
      ∧ (s.pageDirty p = true → s.busOpen = false ∧ ∃ a, s.addr = some a) := by
  cases hd : s.pageDirty p with
  | false => simp [flushPage, hd] at h; simp [h]
  | true =>
    have hs := h
    simp only [flushPage, hd, if_true] at hs
    obtain ⟨u, hu, -⟩ := andThen_eq_next.1 hs
    obtain ⟨-, ⟨a, ha⟩, hb, -⟩ := opSetPosition_cases hu
    rw [flushPage_closed hb ha] at h
    injection h with h
    exact ⟨by simpa [hd] using h.symm, fun _ => ⟨hb, a, ha⟩⟩

/-- The immediate sending step with `ADDR` set and no frame open (R152). -/
theorem sendPixelByte_closed {s : State} (h : s.busOpen = false) {a : BitVec 7} (ha : s.addr = some a) {x y : Nat}
    (hx : x < 128) (hy : y < 64) :
    sendPixelByte x y s
      = .next (if s.shadowDirty (indexOf x y) then
          (s.perform (s.pixelEvents x y)).setShadow (knownWrite s.shadow (indexOf x y) [s.fbByte (indexOf x y)])
        else s) := by
  unfold sendPixelByte
  split
  · next hd =>
    have h0 : opSetPosition (x : Int) (pageOf y : Int) s = .next (s.perform (s.positionEvents x (pageOf y))) :=
      opSetPosition_closed h ha (by omega) (by simp only [pageOf]; omega)
    have h1 : opWriteDataBlock [s.fbByte (indexOf x y)] 1 (s.perform (s.positionEvents x (pageOf y)))
        = .next ((s.perform (s.positionEvents x (pageOf y))).perform (s.dataEvents [s.fbByte (indexOf x y)])) :=
      opWriteDataBlock_closed (s := s.perform (s.positionEvents x (pageOf y))) h ha
        (buffer := [s.fbByte (indexOf x y)]) (length := 1) (by simp)
    simp [h0, h1, hd, State.pixelEvents, State.perform_append]
  · simp

/-! ### Calling a public operation -/

/-- A public operation called with `SEQ` idle (R17). -/
theorem callPublic_idle {s : State} (h : s.seq = .idle) (op : Instr) (body : State → Out) :
    callPublic op body s
      = andThen (body (s.setSeq (.running op 0))) fun t => .next (t.setSeq .idle) := by
  simp [callPublic, h]

/-- Everything a public call can do when it answers: `SEQ` was idle, the body answered, and `SEQ` is idle again (R17). -/
theorem callPublic_cases {op : Instr} {body : State → Out} {s t : State} (h : callPublic op body s = .next t) :
    s.seq = .idle ∧ ∃ u, body (s.setSeq (.running op 0)) = .next u ∧ t = u.setSeq .idle := by
  cases hs : s.seq with
  | running o i => simp [callPublic, hs] at h
  | idle =>
    rw [callPublic_idle hs] at h
    obtain ⟨u, hu, ht⟩ := andThen_eq_next.1 h
    exact ⟨rfl, u, hu, by injection ht with ht; exact ht.symm⟩

/-- Everything a call that needs `initialize` can do when it answers (R191). -/
theorem requireInitialized_cases {body : State → Out} {s t : State} (h : requireInitialized body s = .next t) :
    (∃ a, s.addr = some a) ∧ body s = .next t := by
  cases ha : s.addr with
  | none => simp [requireInitialized, ha] at h
  | some a => exact ⟨⟨a, rfl⟩, by simpa [requireInitialized, ha] using h⟩

@[simp] theorem requireInitialized_set {s : State} {a : BitVec 7} (ha : s.addr = some a) (body : State → Out) :
    requireInitialized body s = body s := by
  simp [requireInitialized, ha]

end Sys2Proof.Machine
end

