-- ==== Sys2Proof/Laws/Operations.lean ====
section
/-!
SUPPORT. What each operation answers, said once: `SEQ` is taken out of the way, each public operation has its closed form,
and `exec_answers` says everything `exec` can do when it answers a next state.
-/

namespace Sys2Proof.Machine

/-! ### `SEQ` out of the way -/

theorem State.setSeq_idle {s : State} (h : s.seq = .idle) : s.setSeq .idle = s := by
  rw [← h]; rfl

theorem State.markPages_setSeq (s : State) (q : Seq) (lo hi : Nat) :
    (s.setSeq q).markPages lo hi = (s.markPages lo hi).setSeq q := by
  simp only [State.markPages, State.setSeq_cfg]; split <;> rfl

theorem State.markAll_setSeq (s : State) (q : Seq) : (s.setSeq q).markAll = s.markAll.setSeq q := by
  simp only [State.markAll, State.setSeq_cfg]; split <;> rfl

theorem State.cleanPage_setSeq (s : State) (q : Seq) (p : Fin 8) :
    (s.setSeq q).cleanPage p = (s.cleanPage p).setSeq q := by
  simp only [State.cleanPage, State.setSeq_cfg]; split <;> rfl

theorem State.paintPixel_setSeq (s : State) (q : Seq) (x y : Nat) (c : Bool) :
    (s.setSeq q).paintPixel x y c = (s.paintPixel x y c).setSeq q :=
  State.markPages_setSeq (s.fbStore (indexOf x y) [paint (s.fbByte (indexOf x y)) y c]) q (pageOf y) (pageOf y)

theorem State.loadAt_setSeq (s : State) (q : Seq) (b : List Byte) (n eff : Nat) :
    (s.setSeq q).loadAt b n eff = (s.loadAt b n eff).setSeq q := by
  unfold State.loadAt
  split
  · rfl
  · exact State.markPages_setSeq (s.fbStore eff (b.take n)) q _ _

/-! ### The page walk -/

/-- One page of the walk as a function (R150, R151). -/
def State.pageSent (s : State) (p : Fin 8) : State :=
  if s.pageDirty p then (s.perform (s.pageEvents p)).cleanPage p else s

/-- The walk as a function (R150, R151). -/
def State.pagesSent (s : State) (ps : List (Fin 8)) : State := ps.foldl State.pageSent s

@[simp] theorem State.pagesSent_nil (s : State) : s.pagesSent [] = s := rfl

@[simp] theorem State.pagesSent_cons (s : State) (p : Fin 8) (ps : List (Fin 8)) :
    s.pagesSent (p :: ps) = (s.pageSent p).pagesSent ps := rfl

theorem State.pageSent_setSeq (s : State) (q : Seq) (p : Fin 8) :
    ((s.setSeq q).pageSent p).setSeq .idle = (s.pageSent p).setSeq .idle := by
  by_cases hd : s.pageDirty p = true
  · simp only [State.pageSent, State.setSeq_pageDirty, State.setSeq_pageEvents, State.perform_setSeq, hd, if_true,
      State.cleanPage_setSeq, State.setSeq_setSeq]
  · simp [State.pageSent, hd]

theorem State.pagesSent_setSeq (ps : List (Fin 8)) (s u : State) (h : s.setSeq .idle = u.setSeq .idle) :
    (s.pagesSent ps).setSeq .idle = (u.pagesSent ps).setSeq .idle := by
  induction ps generalizing s u with
  | nil => exact h
  | cons p ps ih =>
    refine ih _ _ ?_
    rw [← State.pageSent_setSeq s .idle, ← State.pageSent_setSeq u .idle, h]

@[simp] theorem State.pageSent_cfg (s : State) (p : Fin 8) : (s.pageSent p).cfg = s.cfg := by
  unfold State.pageSent; split <;> simp

@[simp] theorem State.pageSent_addr (s : State) (p : Fin 8) : (s.pageSent p).addr = s.addr := by
  unfold State.pageSent; split <;> simp

@[simp] theorem State.pageSent_delay (s : State) (p : Fin 8) : (s.pageSent p).delay = s.delay := by
  unfold State.pageSent; split <;> simp

@[simp] theorem State.pageSent_busOpen (s : State) (p : Fin 8) : (s.pageSent p).busOpen = s.busOpen := by
  unfold State.pageSent; split <;> simp

@[simp] theorem State.pageSent_fb (s : State) (p : Fin 8) : (s.pageSent p).fb = s.fb := by
  unfold State.pageSent; split <;> simp

@[simp] theorem State.pageSent_requests (s : State) (p : Fin 8) : (s.pageSent p).requests = s.requests := by
  unfold State.pageSent; split <;> simp

@[simp] theorem State.pageSent_result (s : State) (p : Fin 8) : (s.pageSent p).result = s.result := by
  unfold State.pageSent; split <;> simp

@[simp] theorem State.pageSent_draws (s : State) (p : Fin 8) : (s.pageSent p).draws = s.draws := by
  unfold State.pageSent; split <;> simp

theorem State.pageSent_seq {s : State} (h : s.seq = .idle) (p : Fin 8) : (s.pageSent p).seq = .idle := by
  unfold State.pageSent; split <;> simp [h]

theorem State.pagesSent_seq (ps : List (Fin 8)) {s : State} (h : s.seq = .idle) : (s.pagesSent ps).seq = .idle := by
  induction ps generalizing s with
  | nil => exact h
  | cons p ps ih => exact ih (State.pageSent_seq h p)

/-- The walk with `ADDR` set and no frame open answers (R150, R151). -/
theorem flushPages_closed (ps : List (Fin 8)) {s : State} (h : s.busOpen = false) {a : BitVec 7} (ha : s.addr = some a) :
    flushPages ps s = .next (s.pagesSent ps) := by
  induction ps generalizing s with
  | nil => rfl
  | cons p ps ih =>
    rw [flushPages, flushPage_closed h ha]
    exact ih (s := s.pageSent p) (by simp [h]) (by simp [ha])

/-- Everything the walk can do when it answers: it is the function, and a page was dirty only with the bus closed (R98). -/
theorem flushPages_cases (ps : List (Fin 8)) {s t : State} (h : flushPages ps s = .next t) :
    t = s.pagesSent ps ∧ (s.busOpen = true → t = s) := by
  induction ps generalizing s with
  | nil => simp [flushPages] at h; simp [h]
  | cons p ps ih =>
    obtain ⟨u, hu, hr⟩ := andThen_eq_next.1 h
    obtain ⟨e, hb⟩ := flushPage_cases hu
    obtain ⟨h1, h2⟩ := ih hr
    change u = s.pageSent p at e
    refine ⟨by rw [State.pagesSent_cons, ← e, h1], fun ho => ?_⟩
    have hd : s.pageDirty p = false := by
      cases hd : s.pageDirty p with
      | false => rfl
      | true => rw [(hb hd).1] at ho; cases ho
    have eu : u = s := by rw [e, State.pageSent, hd]; rfl
    subst eu
    exact h2 ho

/-- What a `flush` answers, idle, with `ADDR` set and no frame open. -/
theorem callFlush_closed {s : State} (hs : s.seq = .idle) (h : s.busOpen = false) {a : BitVec 7} (ha : s.addr = some a)
    (op : Instr) : callPublic op (requireInitialized (flushPages pages)) s = .next (s.pagesSent pages) := by
  rw [callPublic_idle hs, requireInitialized_set (s := s.setSeq (.running op 0)) ha, flushPages_closed pages (s := s.setSeq (.running op 0)) h ha,
    andThen_next, State.pagesSent_setSeq pages (s.setSeq (.running op 0)) s rfl, State.setSeq_idle (State.pagesSent_seq _ hs)]

/-! ### The immediate sending step -/

/-- The sending step as a function (R152). -/
def State.pixelSent (s : State) (x y : Nat) : State :=
  if s.shadowDirty (indexOf x y) then
    (s.perform (s.pixelEvents x y)).setShadow (knownWrite s.shadow (indexOf x y) [s.fbByte (indexOf x y)])
  else s

theorem State.pixelSent_setSeq (s : State) (q : Seq) (x y : Nat) :
    ((s.setSeq q).pixelSent x y).setSeq .idle = (s.pixelSent x y).setSeq .idle := by
  by_cases hd : s.shadowDirty (indexOf x y) = true
  · simp only [State.pixelSent, State.setSeq_shadowDirty, State.setSeq_pixelEvents, State.perform_setSeq, hd, if_true,
      State.setSeq_shadow, State.setSeq_fbByte]
    rfl
  · simp [State.pixelSent, hd]

theorem State.pixelSent_seq {s : State} (h : s.seq = .idle) (x y : Nat) : (s.pixelSent x y).seq = .idle := by
  unfold State.pixelSent; split <;> simp [h]

/-- Everything the sending step can do when it answers (R152). -/
theorem sendPixelByte_cases {s t : State} {x y : Nat} (hx : x < 128) (hy : y < 64) (h : sendPixelByte x y s = .next t) :
    t = s.pixelSent x y ∧ (s.busOpen = true → t = s) := by
  cases hd : s.shadowDirty (indexOf x y) with
  | false => simp [sendPixelByte, hd] at h; subst h; simp [State.pixelSent, hd]
  | true =>
    have hs := h
    simp only [sendPixelByte, hd, if_true] at hs
    obtain ⟨u, hu, -⟩ := andThen_eq_next.1 hs
    obtain ⟨-, ⟨a, ha⟩, hb, -⟩ := opSetPosition_cases hu
    rw [sendPixelByte_closed hb ha hx hy] at h
    injection h with h
    exact ⟨h.symm, fun ho => by rw [hb] at ho; cases ho⟩

/-- The sending step with `ADDR` set and no frame open answers (R152). -/
theorem sendPixelByte_sent {s : State} (h : s.busOpen = false) {a : BitVec 7} (ha : s.addr = some a) {x y : Nat}
    (hx : x < 128) (hy : y < 64) : sendPixelByte x y s = .next (s.pixelSent x y) :=
  sendPixelByte_closed h ha hx hy

theorem inBitmap_iff (x y : Int) : inBitmap x y = true ↔ 0 ≤ x ∧ x < 128 ∧ 0 ≤ y ∧ y < 64 := by
  simp [inBitmap]

/-! ### The public operations, closed -/

/-- What a public call answers when its body, at any `SEQ`, answers `f` of its state, `f` being blind to `SEQ`. -/
theorem callPublic_closed {s : State} (hs : s.seq = .idle) {op : Instr} {body : State → Out} {f : State → State}
    (hb : body (s.setSeq (.running op 0)) = .next (f (s.setSeq (.running op 0))))
    (hf : (f (s.setSeq (.running op 0))).setSeq .idle = (f s).setSeq .idle) (hi : (f s).seq = .idle) :
    callPublic op body s = .next (f s) := by
  rw [callPublic_idle hs, hb, andThen_next, hf, State.setSeq_idle hi]

/-- What `setPixel` leaves, in this instance's configuration, inside the bitmap (R136, R137, R152). -/
def State.pixelSet (s : State) (x y : Nat) (c : Bool) : State :=
  match s.cfg.variant.flushMode with
  | .batched => (s.paintPixel x y c).setResult (.status .ok)
  | .immediate => ((s.paintPixel x y c).pixelSent x y).setResult (.status .ok)

/-! ### What the functions leave alone, field by field -/

@[simp] theorem State.pagesSent_cfg (s : State) (ps : List (Fin 8)) : (s.pagesSent ps).cfg = s.cfg := by
  induction ps generalizing s with
  | nil => rfl
  | cons p ps ih => rw [State.pagesSent_cons, ih, State.pageSent_cfg]

@[simp] theorem State.pagesSent_addr (s : State) (ps : List (Fin 8)) : (s.pagesSent ps).addr = s.addr := by
  induction ps generalizing s with
  | nil => rfl
  | cons p ps ih => rw [State.pagesSent_cons, ih, State.pageSent_addr]

@[simp] theorem State.pagesSent_delay (s : State) (ps : List (Fin 8)) : (s.pagesSent ps).delay = s.delay := by
  induction ps generalizing s with
  | nil => rfl
  | cons p ps ih => rw [State.pagesSent_cons, ih, State.pageSent_delay]

@[simp] theorem State.pagesSent_busOpen (s : State) (ps : List (Fin 8)) : (s.pagesSent ps).busOpen = s.busOpen := by
  induction ps generalizing s with
  | nil => rfl
  | cons p ps ih => rw [State.pagesSent_cons, ih, State.pageSent_busOpen]

@[simp] theorem State.pagesSent_fb (s : State) (ps : List (Fin 8)) : (s.pagesSent ps).fb = s.fb := by
  induction ps generalizing s with
  | nil => rfl
  | cons p ps ih => rw [State.pagesSent_cons, ih, State.pageSent_fb]

@[simp] theorem State.pagesSent_requests (s : State) (ps : List (Fin 8)) : (s.pagesSent ps).requests = s.requests := by
  induction ps generalizing s with
  | nil => rfl
  | cons p ps ih => rw [State.pagesSent_cons, ih, State.pageSent_requests]

@[simp] theorem State.pagesSent_result (s : State) (ps : List (Fin 8)) : (s.pagesSent ps).result = s.result := by
  induction ps generalizing s with
  | nil => rfl
  | cons p ps ih => rw [State.pagesSent_cons, ih, State.pageSent_result]

@[simp] theorem State.pagesSent_draws (s : State) (ps : List (Fin 8)) : (s.pagesSent ps).draws = s.draws := by
  induction ps generalizing s with
  | nil => rfl
  | cons p ps ih => rw [State.pagesSent_cons, ih, State.pageSent_draws]

@[simp] theorem State.pixelSent_cfg (s : State) (x y : Nat) : (s.pixelSent x y).cfg = s.cfg := by
  unfold State.pixelSent; split <;> simp

@[simp] theorem State.pixelSent_addr (s : State) (x y : Nat) : (s.pixelSent x y).addr = s.addr := by
  unfold State.pixelSent; split <;> simp

@[simp] theorem State.pixelSent_delay (s : State) (x y : Nat) : (s.pixelSent x y).delay = s.delay := by
  unfold State.pixelSent; split <;> simp

@[simp] theorem State.pixelSent_busOpen (s : State) (x y : Nat) : (s.pixelSent x y).busOpen = s.busOpen := by
  unfold State.pixelSent; split <;> simp

@[simp] theorem State.pixelSent_fb (s : State) (x y : Nat) : (s.pixelSent x y).fb = s.fb := by
  unfold State.pixelSent; split <;> simp

@[simp] theorem State.pixelSent_requests (s : State) (x y : Nat) : (s.pixelSent x y).requests = s.requests := by
  unfold State.pixelSent; split <;> simp

@[simp] theorem State.pixelSent_result (s : State) (x y : Nat) : (s.pixelSent x y).result = s.result := by
  unfold State.pixelSent; split <;> simp

@[simp] theorem State.pixelSent_draws (s : State) (x y : Nat) : (s.pixelSent x y).draws = s.draws := by
  unfold State.pixelSent; split <;> simp

@[simp] theorem State.pixelSent_dirty (s : State) (x y : Nat) : (s.pixelSent x y).dirty = s.dirty := by
  unfold State.pixelSent; split <;> simp

@[simp] theorem State.paintPixel_cfg (s : State) (x y : Nat) (c : Bool) : (s.paintPixel x y c).cfg = s.cfg := by
  simp [State.paintPixel]

@[simp] theorem State.paintPixel_pins (s : State) (x y : Nat) (c : Bool) : (s.paintPixel x y c).pins = s.pins := by
  simp [State.paintPixel]

@[simp] theorem State.paintPixel_addr (s : State) (x y : Nat) (c : Bool) : (s.paintPixel x y c).addr = s.addr := by
  simp [State.paintPixel]

@[simp] theorem State.paintPixel_delay (s : State) (x y : Nat) (c : Bool) : (s.paintPixel x y c).delay = s.delay := by
  simp [State.paintPixel]

@[simp] theorem State.paintPixel_busOpen (s : State) (x y : Nat) (c : Bool) : (s.paintPixel x y c).busOpen = s.busOpen := by
  simp [State.paintPixel]

@[simp] theorem State.paintPixel_seq (s : State) (x y : Nat) (c : Bool) : (s.paintPixel x y c).seq = s.seq := by
  simp [State.paintPixel]

@[simp] theorem State.paintPixel_shadow (s : State) (x y : Nat) (c : Bool) : (s.paintPixel x y c).shadow = s.shadow := by
  simp [State.paintPixel]

@[simp] theorem State.paintPixel_trace (s : State) (x y : Nat) (c : Bool) : (s.paintPixel x y c).trace = s.trace := by
  simp [State.paintPixel]

@[simp] theorem State.paintPixel_rx (s : State) (x y : Nat) (c : Bool) : (s.paintPixel x y c).rx = s.rx := by
  simp [State.paintPixel]

@[simp] theorem State.paintPixel_panel (s : State) (x y : Nat) (c : Bool) : (s.paintPixel x y c).panel = s.panel := by
  simp [State.paintPixel]

@[simp] theorem State.paintPixel_requests (s : State) (x y : Nat) (c : Bool) : (s.paintPixel x y c).requests = s.requests := by
  simp [State.paintPixel]

@[simp] theorem State.paintPixel_result (s : State) (x y : Nat) (c : Bool) : (s.paintPixel x y c).result = s.result := by
  simp [State.paintPixel]

@[simp] theorem State.paintPixel_draws (s : State) (x y : Nat) (c : Bool) : (s.paintPixel x y c).draws = s.draws := by
  simp [State.paintPixel]

@[simp] theorem State.loadAt_cfg (s : State) (b : List Byte) (n eff : Nat) : (s.loadAt b n eff).cfg = s.cfg := by
  unfold State.loadAt; split <;> simp

@[simp] theorem State.loadAt_pins (s : State) (b : List Byte) (n eff : Nat) : (s.loadAt b n eff).pins = s.pins := by
  unfold State.loadAt; split <;> simp

@[simp] theorem State.loadAt_addr (s : State) (b : List Byte) (n eff : Nat) : (s.loadAt b n eff).addr = s.addr := by
  unfold State.loadAt; split <;> simp

@[simp] theorem State.loadAt_delay (s : State) (b : List Byte) (n eff : Nat) : (s.loadAt b n eff).delay = s.delay := by
  unfold State.loadAt; split <;> simp

@[simp] theorem State.loadAt_busOpen (s : State) (b : List Byte) (n eff : Nat) : (s.loadAt b n eff).busOpen = s.busOpen := by
  unfold State.loadAt; split <;> simp

@[simp] theorem State.loadAt_seq (s : State) (b : List Byte) (n eff : Nat) : (s.loadAt b n eff).seq = s.seq := by
  unfold State.loadAt; split <;> simp

@[simp] theorem State.loadAt_shadow (s : State) (b : List Byte) (n eff : Nat) : (s.loadAt b n eff).shadow = s.shadow := by
  unfold State.loadAt; split <;> simp

@[simp] theorem State.loadAt_trace (s : State) (b : List Byte) (n eff : Nat) : (s.loadAt b n eff).trace = s.trace := by
  unfold State.loadAt; split <;> simp

@[simp] theorem State.loadAt_rx (s : State) (b : List Byte) (n eff : Nat) : (s.loadAt b n eff).rx = s.rx := by
  unfold State.loadAt; split <;> simp

@[simp] theorem State.loadAt_panel (s : State) (b : List Byte) (n eff : Nat) : (s.loadAt b n eff).panel = s.panel := by
  unfold State.loadAt; split <;> simp

@[simp] theorem State.loadAt_requests (s : State) (b : List Byte) (n eff : Nat) : (s.loadAt b n eff).requests = s.requests := by
  unfold State.loadAt; split <;> simp

@[simp] theorem State.loadAt_result (s : State) (b : List Byte) (n eff : Nat) : (s.loadAt b n eff).result = s.result := by
  unfold State.loadAt; split <;> simp

@[simp] theorem State.loadAt_draws (s : State) (b : List Byte) (n eff : Nat) : (s.loadAt b n eff).draws = s.draws := by
  unfold State.loadAt; split <;> simp

@[simp] theorem State.pixelSet_cfg (s : State) (x y : Nat) (c : Bool) : (s.pixelSet x y c).cfg = s.cfg := by
  unfold State.pixelSet; split <;> simp

@[simp] theorem State.pixelSet_addr (s : State) (x y : Nat) (c : Bool) : (s.pixelSet x y c).addr = s.addr := by
  unfold State.pixelSet; split <;> simp

@[simp] theorem State.pixelSet_delay (s : State) (x y : Nat) (c : Bool) : (s.pixelSet x y c).delay = s.delay := by
  unfold State.pixelSet; split <;> simp

@[simp] theorem State.pixelSet_busOpen (s : State) (x y : Nat) (c : Bool) : (s.pixelSet x y c).busOpen = s.busOpen := by
  unfold State.pixelSet; split <;> simp

@[simp] theorem State.pixelSet_requests (s : State) (x y : Nat) (c : Bool) : (s.pixelSet x y c).requests = s.requests := by
  unfold State.pixelSet; split <;> simp

@[simp] theorem State.pixelSet_draws (s : State) (x y : Nat) (c : Bool) : (s.pixelSet x y c).draws = s.draws := by
  unfold State.pixelSet; split <;> simp

@[simp] theorem State.pixelSet_fb (s : State) (x y : Nat) (c : Bool) :
    (s.pixelSet x y c).fb = (s.paintPixel x y c).fb := by
  unfold State.pixelSet; split <;> simp

@[simp] theorem State.pixelSet_dirty (s : State) (x y : Nat) (c : Bool) :
    (s.pixelSet x y c).dirty = (s.paintPixel x y c).dirty := by
  unfold State.pixelSet; split <;> simp

@[simp] theorem State.pixelSet_result (s : State) (x y : Nat) (c : Bool) :
    (s.pixelSet x y c).result = .status .ok := by
  unfold State.pixelSet; split <;> simp

theorem State.pixelSet_seq {s : State} (h : s.seq = .idle) (x y : Nat) (c : Bool) : (s.pixelSet x y c).seq = .idle := by
  unfold State.pixelSet; split
  · simp [h]
  · exact State.pixelSent_seq (by simp [h]) x y

/-! ### Everything `exec` can do -/

/-- Everything `exec` can do when it answers a next state. -/
inductive Answers (s : State) : Instr → State → Prop where
  /-- Cells, bytes, frames, primitives, transport and the internal device commands: the expansion is performed. -/
  | performs (i : Instr) : i.isPublic = false → (∀ a, i ≠ .beginFrame a) → i ≠ .endFrame → (∀ x y, i ≠ .pixel x y) →
      (∀ x y, i ≠ .setPixelImmediate x y) → Answers s i (s.perform (expansion i s))
  | begins (a : BitVec 7) : s.busOpen = false →
      Answers s (.beginFrame a) ((s.perform (expansion (.beginFrame a) s)).setBusOpen true)
  | ends : s.busOpen = true → Answers s .endFrame ((s.perform (expansion .endFrame s)).setBusOpen false)
  | reads (x y : Int) : (0 ≤ x ∧ x < 128 ∧ 0 ≤ y ∧ y < 64) → s.addr.isSome = true →
      Answers s (.pixel x y) (s.setResult (.pixel (s.pixelBit x.toNat y.toNat)))
  | draws (x y : Int) : ¬((0 ≤ x ∧ x < 128 ∧ 0 ≤ y ∧ y < 64) ∧ s.addr.isSome = true) →
      Answers s (.pixel x y) (s.setResult (.pixel (Config.freeBit s.draws))).countDraw
  | initializes (address pc rf : Nat) : address ≤ 127 → pc ≤ 255 → rf ≤ 255 → s.seq = .idle → s.busOpen = false →
      Answers s (.initializePanel address pc rf)
        (((s.setAddr (some (BitVec.ofNat 7 address))).perform (expansion (.initializePanel address pc rf) s)).fbStore 0
          (List.replicate fbSize 0#8)).markAll
  | powers (on : Bool) : s.seq = .idle → s.busOpen = false → (∃ a, s.addr = some a) →
      Answers s (.setPower on) (s.perform (expansion (.setPower on) s))
  | contrasts (v : Byte) : s.seq = .idle → s.busOpen = false → (∃ a, s.addr = some a) →
      Answers s (.setContrast v) (s.perform (expansion (.setContrast v) s))
  | paints (i : Instr) (x y : Nat) (c : Bool) : i = .setPixel x y c ∨ i = .setPixelByte x y c → x < 128 → y < 64 →
      s.seq = .idle → (∃ a, s.addr = some a) →
      (s.cfg.variant.flushMode = .immediate → s.busOpen = true →
        (s.paintPixel x y c).shadowDirty (indexOf x y) = false) →
      Answers s i (s.pixelSet x y c)
  | sends (x y : Nat) : x < 128 → y < 64 → s.cfg.variant.flushMode = .immediate →
      (s.shadowDirty (indexOf x y) = true → (∃ a, s.addr = some a) ∧ s.busOpen = false) →
      Answers s (.setPixelImmediate x y) (s.pixelSent x y)
  | passes (x y : Int) : s.cfg.variant.flushMode = .batched ∨ ¬(0 ≤ x ∧ x < 128 ∧ 0 ≤ y ∧ y < 64) →
      Answers s (.setPixelImmediate x y) s
  | misses (i : Instr) (x y : Int) (c : Bool) : ¬(0 ≤ x ∧ x < 128 ∧ 0 ≤ y ∧ y < 64) →
      i = .setPixel x y c ∨ i = .setPixelByte x y c → s.seq = .idle →
      (∃ a, s.addr = some a) → Answers s i (s.setResult (.status .outOfRange))
  | fills (v : Byte) : s.seq = .idle → (∃ a, s.addr = some a) →
      Answers s (.fill v) (s.fbStore 0 (List.replicate fbSize v)).markAll
  | loads (b : List Byte) (n o eff : Nat) : s.seq = .idle → (∃ a, s.addr = some a) →
      effectiveOffset s.cfg.variant.granularity o = some eff → eff + n ≤ fbSize → n ≤ b.length →
      Answers s (.loadBlock b n o) (s.loadAt b n eff)
  | flushes (i : Instr) : i = .flush ∨ i = .flushByte → s.seq = .idle → (∃ a, s.addr = some a) →
      (s.busOpen = true → s.pagesSent pages = s) → Answers s i (s.pagesSent pages)

/-- The body of `setPixel` under a public call (R136, R137, R152). -/
theorem setPixelBody_answers {s t : State} {i op : Instr} {x y : Int} {c : Bool} (hs : s.seq = .idle)
    (ha : ∃ a, s.addr = some a) (hi : i = .setPixel x y c ∨ i = .setPixelByte x y c)
    (h : ∃ u, setPixelBody x y c (s.setSeq (.running op 0)) = .next u ∧ t = u.setSeq .idle) : Answers s i t := by
  obtain ⟨u, hu, rfl⟩ := h
  unfold setPixelBody at hu
  split at hu
  · next hr =>
    obtain ⟨h1, h2, h3, h4⟩ := (inBitmap_iff x y).1 hr
    obtain ⟨x, rfl⟩ := Int.eq_ofNat_of_zero_le h1
    obtain ⟨y, rfl⟩ := Int.eq_ofNat_of_zero_le h3
    simp only [Int.toNat_natCast, State.paintPixel_setSeq, sendingStep, State.setSeq_cfg, State.paintPixel_cfg] at hu
    have hp := State.paintPixel_seq s x y c
    rw [hs] at hp
    cases hf : s.cfg.variant.flushMode with
    | batched =>
      simp only [hf, returnStatus, andThen_next] at hu
      injection hu with hu
      subst hu
      have := Answers.paints (s := s) i x y c hi (by omega) (by omega) hs ha (by simp [hf])
      rw [State.pixelSet, hf] at this
      rw [show ((((s.paintPixel x y c).setSeq (.running op 0)).setResult (.status .ok)).setSeq .idle : State)
        = ((s.paintPixel x y c).setSeq .idle).setResult (.status .ok) from rfl, State.setSeq_idle hp]
      exact this
    | immediate =>
      simp only [hf] at hu
      obtain ⟨v, hv, hr⟩ := andThen_eq_next.1 hu
      injection hr with hr
      subst hr
      obtain ⟨e1, e2⟩ := sendPixelByte_cases (by omega) (by omega) hv
      have hb : s.busOpen = true → (s.paintPixel x y c).shadowDirty (indexOf x y) = false := by
        intro hb
        cases hd : (s.paintPixel x y c).shadowDirty (indexOf x y) with
        | false => rfl
        | true =>
          have hv' := hv
          simp only [sendPixelByte, State.setSeq_shadowDirty, hd, if_true] at hv'
          obtain ⟨w, hw, -⟩ := andThen_eq_next.1 hv'
          obtain ⟨-, -, hc, -⟩ := opSetPosition_cases hw
          rw [State.setSeq_busOpen, State.paintPixel, State.markPages_busOpen, State.fbStore_busOpen, hb] at hc
          cases hc
      have := Answers.paints (s := s) i x y c hi (by omega) (by omega) hs ha (fun _ => hb)
      rw [State.pixelSet, hf] at this
      subst e1
      rw [show (((((s.paintPixel x y c).setSeq (.running op 0)).pixelSent x y).setResult (.status .ok)).setSeq .idle : State)
        = ((((s.paintPixel x y c).setSeq (.running op 0)).pixelSent x y).setSeq .idle).setResult (.status .ok) from rfl,
        State.pixelSent_setSeq, State.setSeq_idle (State.pixelSent_seq hp x y)]
      exact this
  · next hr =>
    simp only [returnStatus] at hu
    injection hu with hu
    subst hu
    have hr' : ¬(0 ≤ x ∧ x < 128 ∧ 0 ≤ y ∧ y < 64) := fun h => hr ((inBitmap_iff x y).2 h)
    have := Answers.misses (s := s) i x y c hr' hi hs ha
    rw [show (((s.setSeq (.running op 0)).setResult (.status .outOfRange)).setSeq .idle : State)
      = (s.setSeq .idle).setResult (.status .outOfRange) from rfl, State.setSeq_idle hs]
    exact this

/-- The sending step by itself (R152). -/
theorem sendingStep_answers {s t : State} {x y : Nat} (hx : x < 128) (hy : y < 64) (h : sendingStep x y s = .next t) :
    Answers s (.setPixelImmediate x y) t := by
  unfold sendingStep at h
  split at h
  · next hf => injection h with h; subst h; exact Answers.passes x y (Or.inl hf)
  · next hf =>
    obtain ⟨rfl, -⟩ := sendPixelByte_cases hx hy h
    refine Answers.sends x y hx hy hf fun hd => ?_
    simp only [sendPixelByte, hd, if_true] at h
    obtain ⟨u, hu, -⟩ := andThen_eq_next.1 h
    obtain ⟨-, ha, hb, -⟩ := opSetPosition_cases hu
    exact ⟨ha, hb⟩

/-- `flush` under a public call (R150, R151). -/
theorem flush_answers {s t : State} {i op : Instr} (hi : i = .flush ∨ i = .flushByte) (hs : s.seq = .idle)
    (ha : ∃ a, s.addr = some a)
    (h : ∃ u, flushPages pages (s.setSeq (.running op 0)) = .next u ∧ t = u.setSeq .idle) : Answers s i t := by
  obtain ⟨u, hu, rfl⟩ := h
  obtain ⟨e1, e2⟩ := flushPages_cases pages hu
  have e : u.setSeq .idle = s.pagesSent pages := by
    rw [e1, State.pagesSent_setSeq pages (s.setSeq (.running op 0)) s rfl, State.setSeq_idle (State.pagesSent_seq _ hs)]
  rw [e]
  refine Answers.flushes i hi hs ha fun hb => ?_
  rw [← e, e2 hb, State.setSeq_setSeq, State.setSeq_idle hs]

/-- What a stretch of events under a public call leaves (R17). -/
theorem State.perform_called {s : State} (hs : s.seq = .idle) (q : Seq) (es : List Event) :
    ((s.setSeq q).perform es).setSeq .idle = s.perform es := by
  rw [State.perform_setSeq, State.setSeq_setSeq]
  exact State.setSeq_idle (by simp [hs])

/-- Everything `exec` can do when it answers a next state. -/
theorem exec_answers {i : Instr} {s t : State} (h : exec i s = .next t) : Answers s i t := by
  have wire : ∀ es, exec i s = .next (s.perform es) → es = expansion i s → i.isPublic = false →
      (∀ a, i ≠ .beginFrame a) → i ≠ .endFrame → (∀ x y, i ≠ .pixel x y) → (∀ x y, i ≠ .setPixelImmediate x y) →
      Answers s i t := by
    intro es he hes h1 h2 h3 h4 h5
    rw [he] at h; injection h with h; subst h; subst hes
    exact Answers.performs i h1 h2 h3 h4 h5
  have trans : ∀ bs, exec i s = opTransaction bs s → s.frameEvents bs = expansion i s → i.isPublic = false →
      (∀ a, i ≠ .beginFrame a) → i ≠ .endFrame → (∀ x y, i ≠ .pixel x y) → (∀ x y, i ≠ .setPixelImmediate x y) →
      Answers s i t := by
    intro bs he hes
    obtain ⟨-, -, ht⟩ := opTransaction_cases (he ▸ h)
    exact wire _ (h.trans (congrArg _ ht)) hes
  cases i
  case beginFrame a =>
    simp only [exec_beginFrame, execBeginFrame, opBegin] at h
    split at h
    · cases h
    · next hb =>
      injection h with h
      subst h
      have := Answers.begins (s := s) a (by simpa using hb)
      simpa [expansion, State.bytesEvents] using this
  case endFrame =>
    simp only [exec_endFrame, execEndFrame, opEnd] at h
    split at h
    · next hb => injection h with h; subst h; exact Answers.ends hb
    · cases h
  case writeBytes b n =>
    simp only [exec_writeBytes, execWriteBytes, opWriteBytes] at h
    split at h
    · split at h
      · cases h
      · injection h with h
        subst h
        exact Answers.performs (.writeBytes b n) rfl nofun nofun nofun nofun
    · cases h
  case frame a ctl payload =>
    simp only [exec_frame, execFrame] at h
    cases hb : s.busOpen with
    | true => rw [opFrame_open hb] at h; cases h
    | false =>
      rw [opFrame_closed hb] at h
      injection h with h
      subst h
      exact Answers.performs (.frame a ctl payload) rfl nofun nofun nofun nofun
  case pixel x y =>
    simp only [exec_pixel, execPixel] at h
    split at h
    · next hr =>
      rw [Bool.and_eq_true, inBitmap_iff] at hr
      injection h with h; subst h
      exact Answers.reads x y hr.1 hr.2
    · next hr =>
      rw [Bool.and_eq_true, inBitmap_iff] at hr
      injection h with h; subst h
      exact Answers.draws x y hr
  case initializePanel address pc rf =>
    obtain ⟨hs, u, hu, rfl⟩ := callPublic_cases h
    unfold initializeBody at hu
    split at hu
    · cases hu
    · next hr =>
      obtain ⟨v, hv, hw⟩ := andThen_eq_next.1 hu
      injection hw with hw
      obtain ⟨-, hb, rfl⟩ := opTransaction_cases hv
      subst hw
      have := Answers.initializes (s := s) address pc rf (by omega) (by omega) (by omega) hs hb
      rw [← State.markAll_setSeq]
      rw [show ∀ (w : State) m a vs, (w.fbStore a vs).setSeq m = (w.setSeq m).fbStore a vs from fun _ _ _ _ => rfl]
      rw [show ∀ (w : State) q a, (w.setSeq q).setAddr a = (w.setAddr a).setSeq q from fun _ _ _ => rfl]
      rw [State.perform_called (s := s.setAddr (some (BitVec.ofNat 7 address))) hs]
      exact this
  case setPower on =>
    obtain ⟨hs, u, hu, rfl⟩ := callPublic_cases h
    obtain ⟨ha, hb, rfl⟩ := opTransaction_cases hu
    rw [State.perform_called hs, State.setSeq_frameEvents]
    cases on <;> exact Answers.powers _ hs hb ha
  case setContrast v =>
    obtain ⟨hs, u, hu, rfl⟩ := callPublic_cases h
    obtain ⟨ha, hb, rfl⟩ := opTransaction_cases hu
    rw [State.perform_called hs, State.setSeq_frameEvents]
    exact Answers.contrasts v hs hb ha
  case setPixel x y c =>
    obtain ⟨hs, u, hu, rfl⟩ := callPublic_cases h
    obtain ⟨ha, hu⟩ := requireInitialized_cases hu
    exact setPixelBody_answers hs ha (Or.inl rfl) ⟨u, hu, rfl⟩
  case setPixelByte x y c =>
    obtain ⟨hs, u, hu, rfl⟩ := callPublic_cases h
    obtain ⟨ha, hu⟩ := requireInitialized_cases hu
    exact setPixelBody_answers hs ha (Or.inr rfl) ⟨u, hu, rfl⟩
  case setPixelImmediate x y =>
    simp only [exec_setPixelImmediate, execSetPixelImmediate] at h
    split at h
    · next hr =>
      obtain ⟨h1, h2, h3, h4⟩ := (inBitmap_iff x y).1 hr
      obtain ⟨x, rfl⟩ := Int.eq_ofNat_of_zero_le h1
      obtain ⟨y, rfl⟩ := Int.eq_ofNat_of_zero_le h3
      simp only [Int.toNat_natCast] at h
      exact sendingStep_answers (by omega) (by omega) h
    · next hr =>
      injection h with h
      subst h
      exact Answers.passes x y (Or.inr fun h => hr ((inBitmap_iff x y).2 h))
  case fill v =>
    obtain ⟨hs, u, hu, rfl⟩ := callPublic_cases h
    obtain ⟨ha, hu⟩ := requireInitialized_cases hu
    simp only [fillBody] at hu
    injection hu with hu
    subst hu
    rw [← State.markAll_setSeq, show ∀ (w : State) q a vs q', ((w.setSeq q).fbStore a vs).setSeq q'
      = (w.setSeq q').fbStore a vs from fun _ _ _ _ _ => rfl, State.setSeq_idle hs]
    exact Answers.fills v hs ha
  case loadBlock b n o =>
    obtain ⟨hs, u, hu, rfl⟩ := callPublic_cases h
    obtain ⟨ha, hu⟩ := requireInitialized_cases hu
    unfold loadBlockBody at hu
    split at hu
    · cases hu
    · next hn =>
      obtain ⟨n, rfl⟩ := Int.eq_ofNat_of_zero_le (show 0 ≤ n by omega)
      obtain ⟨o, rfl⟩ := Int.eq_ofNat_of_zero_le (show 0 ≤ o by omega)
      simp only [Int.toNat_natCast, State.setSeq_cfg] at hu
      split at hu
      · cases hu
      · next eff he =>
        split at hu
        · cases hu
        · split at hu
          · cases hu
          · injection hu with hu
            subst hu
            rw [State.loadAt_setSeq, State.setSeq_setSeq, State.setSeq_idle]
            · exact Answers.loads b n o eff hs ha he (by omega) (by omega)
            · unfold State.loadAt; split <;> simp [hs]
  case flush =>
    obtain ⟨hs, u, hu, rfl⟩ := callPublic_cases h
    obtain ⟨ha, hu⟩ := requireInitialized_cases hu
    exact flush_answers (Or.inl rfl) hs ha ⟨u, hu, rfl⟩
  case flushByte =>
    obtain ⟨hs, u, hu, rfl⟩ := callPublic_cases h
    obtain ⟨ha, hu⟩ := requireInitialized_cases hu
    exact flush_answers (Or.inr rfl) hs ha ⟨u, hu, rfl⟩
  case frameCommand1 c => exact trans _ rfl rfl rfl nofun nofun nofun nofun
  case frameCommand2 c c' => exact trans _ rfl rfl rfl nofun nofun nofun nofun
  case framePosition p col => exact trans _ rfl rfl rfl nofun nofun nofun nofun
  case frameData ds => exact trans _ rfl rfl rfl nofun nofun nofun nofun
  case frameInit pc rf => exact trans _ rfl rfl rfl nofun nofun nofun nofun
  case transaction bs => exact trans _ rfl rfl rfl nofun nofun nofun nofun
  case sendCommand c => exact trans _ rfl rfl rfl nofun nofun nofun nofun
  case sendCommand2 c c' => exact trans _ rfl rfl rfl nofun nofun nofun nofun
  case setPosition c p =>
    obtain ⟨-, -, -, ht⟩ := opSetPosition_cases h
    exact wire _ (h.trans (congrArg _ ht)) rfl rfl nofun nofun nofun nofun
  case writeDataBlock b n =>
    obtain ⟨-, -, -, ht⟩ := opWriteDataBlock_cases h
    exact wire _ (h.trans (congrArg _ ht)) rfl rfl nofun nofun nofun nofun
  case byteOut v =>
    exact wire _ rfl (by simp [expansion, State.bytesEvents]) rfl nofun nofun nofun nofun
  all_goals exact wire _ rfl rfl rfl nofun nofun nofun nofun

end Sys2Proof.Machine
end

