-- ==== Sys2Proof/Laws/Answering.lean ====
section
/-!
SUPPORT. When the public operations answer, and with what: the other half of `exec_answers`.
-/

namespace Sys2Proof.Machine

/-- A call that needs `initialize`, `SEQ` set by the call. -/
theorem requireInitialized_called {s : State} {a : BitVec 7} (ha : s.addr = some a) (q : Seq) (body : State → Out) :
    requireInitialized body (s.setSeq q) = body (s.setSeq q) :=
  requireInitialized_set (s := s.setSeq q) ha body

/-- The body of `setPixel` inside the bitmap (R136, R137, R152). -/
theorem setPixelBody_closed {s : State} {a : BitVec 7} (ha : s.addr = some a) (hb : s.busOpen = false) {x y : Nat}
    (hx : x < 128) (hy : y < 64) (c : Bool) : setPixelBody x y c s = .next (s.pixelSet x y c) := by
  have hr : inBitmap (x : Int) (y : Int) = true := (inBitmap_iff _ _).2 (by omega)
  simp only [setPixelBody, hr, if_true, Int.toNat_natCast, State.pixelSet, returnStatus, sendingStep, State.paintPixel_cfg]
  cases s.cfg.variant.flushMode with
  | batched => rfl
  | immediate =>
    rw [sendPixelByte_sent (s := s.paintPixel x y c) (by simp [hb]) (a := a) (by simp [ha]) hx hy]
    rfl

/-- The same in batched mode, where nothing is sent and the bus may be in any state (R136, R137). -/
theorem setPixelBody_batched {s : State} (hf : s.cfg.variant.flushMode = .batched) {x y : Nat}
    (hx : x < 128) (hy : y < 64) (c : Bool) : setPixelBody x y c s = .next (s.pixelSet x y c) := by
  have hr : inBitmap (x : Int) (y : Int) = true := (inBitmap_iff _ _).2 (by omega)
  simp only [setPixelBody, hr, if_true, Int.toNat_natCast, State.pixelSet, returnStatus, sendingStep,
    State.paintPixel_cfg, hf, andThen_next]

theorem State.pixelSet_setSeq (s : State) (q : Seq) (x y : Nat) (c : Bool) :
    ((s.setSeq q).pixelSet x y c).setSeq .idle = (s.pixelSet x y c).setSeq .idle := by
  simp only [State.pixelSet, State.setSeq_cfg, State.paintPixel_setSeq]
  split
  · rfl
  · rw [show ∀ (w : State) r q, (w.setResult r).setSeq q = (w.setSeq q).setResult r from fun _ _ _ => rfl,
      State.pixelSent_setSeq]
    rfl

/-- `setPixel` inside the bitmap, idle, initialised: with the bus closed, or in batched mode (R136, R137, R152). -/
theorem exec_setPixel_closed {s : State} (hs : s.seq = .idle) {a : BitVec 7} (ha : s.addr = some a)
    (hb : s.busOpen = false ∨ s.cfg.variant.flushMode = .batched) {x y : Nat} (hx : x < 128) (hy : y < 64) (c : Bool) :
    exec (.setPixel x y c) s = .next (s.pixelSet x y c) ∧ exec (.setPixelByte x y c) s = .next (s.pixelSet x y c) := by
  have key : ∀ q, setPixelBody x y c (s.setSeq q) = .next ((s.setSeq q).pixelSet x y c) := fun q =>
    hb.elim (fun h => setPixelBody_closed (s := s.setSeq q) ha h hx hy c)
      fun h => setPixelBody_batched (s := s.setSeq q) h hx hy c
  constructor <;>
    exact callPublic_closed hs (f := fun s => s.pixelSet x y c)
      (by rw [requireInitialized_called ha]; exact key _) (State.pixelSet_setSeq s _ x y c)
      (State.pixelSet_seq hs x y c)

/-- The sending step by itself in immediate mode, inside the bitmap, the bus closed (R152). -/
theorem exec_setPixelImmediate_closed {s : State} (hf : s.cfg.variant.flushMode = .immediate) {a : BitVec 7}
    (ha : s.addr = some a) (hb : s.busOpen = false) {x y : Nat} (hx : x < 128) (hy : y < 64) :
    exec (.setPixelImmediate x y) s = .next (s.pixelSent x y) := by
  have hr : inBitmap (x : Int) (y : Int) = true := (inBitmap_iff _ _).2 (by omega)
  simp only [exec_setPixelImmediate, execSetPixelImmediate, hr, if_true, sendingStep, hf, Int.toNat_natCast]
  exact sendPixelByte_sent hb ha hx hy

/-- Where `setPixel` has no sending step to perform, the row does nothing (R152, log entry 11). -/
theorem exec_setPixelImmediate_passes {s : State} {x y : Int}
    (h : s.cfg.variant.flushMode = .batched ∨ inBitmap x y = false) : exec (.setPixelImmediate x y) s = .next s := by
  simp only [exec_setPixelImmediate, execSetPixelImmediate, sendingStep]
  rcases h with h | h <;> simp [h]

/-- `fill`, idle and initialised (R138). -/
theorem exec_fill_closed {s : State} (hs : s.seq = .idle) {a : BitVec 7} (ha : s.addr = some a) (v : Byte) :
    exec (.fill v) s = .next (s.fbStore 0 (List.replicate fbSize v)).markAll := by
  refine callPublic_closed hs (f := fun s => (s.fbStore 0 (List.replicate fbSize v)).markAll) ?_ ?_ ?_
  · rw [requireInitialized_called ha]; rfl
  · rw [show ∀ (w : State) q a vs, (w.setSeq q).fbStore a vs = (w.fbStore a vs).setSeq q from fun _ _ _ _ => rfl,
      State.markAll_setSeq]
    rfl
  · simp [hs]

/-- `loadBlock` in its domain, idle and initialised (R139). -/
theorem exec_loadBlock_closed {s : State} (hs : s.seq = .idle) {a : BitVec 7} (ha : s.addr = some a) {b : List Byte}
    {n o eff : Nat} (he : effectiveOffset s.cfg.variant.granularity o = some eff) (hf : eff + n ≤ fbSize)
    (hl : n ≤ b.length) : exec (.loadBlock b n o) s = .next (s.loadAt b n eff) := by
  refine callPublic_closed hs (f := fun s => s.loadAt b n eff) ?_ ?_ ?_
  · rw [requireInitialized_called ha]
    have h1 : ¬((n : Int) < 0 ∨ (o : Int) < 0) := by omega
    have h2 : ¬eff + n > fbSize := by omega
    have h3 : ¬b.length < n := by omega
    simp only [loadBlockBody, h1, if_false, Int.toNat_natCast, State.setSeq_cfg, he, h2, h3]
  · simp only [State.loadAt_setSeq, State.setSeq_setSeq]
  · simp [hs]

/-- `flush`, idle, initialised, the bus closed (R150, R151). -/
theorem exec_flush_closed {s : State} (hs : s.seq = .idle) (hb : s.busOpen = false) {a : BitVec 7} (ha : s.addr = some a) :
    exec .flush s = .next (s.pagesSent pages) ∧ exec .flushByte s = .next (s.pagesSent pages) :=
  ⟨callFlush_closed hs hb ha .flush, callFlush_closed hs hb ha .flushByte⟩

/-- `initialize` in its domain, idle, the bus closed (R119). -/
theorem exec_initialize_closed {s : State} (hs : s.seq = .idle) (hb : s.busOpen = false) {address pc rf : Nat}
    (h1 : address ≤ 127) (h2 : pc ≤ 255) (h3 : rf ≤ 255) :
    exec (.initializePanel address pc rf) s
      = .next (((s.setAddr (some (BitVec.ofNat 7 address))).perform (expansion (.initializePanel address pc rf) s)).fbStore 0
          (List.replicate fbSize 0#8)).markAll := by
  have hc : ¬(address > 127 ∨ pc > 255 ∨ rf > 255) := by omega
  rw [exec_initializePanel, execInitializePanel, callPublic_idle hs, initializeBody, if_neg hc,
    opTransaction_closed (s := (s.setSeq (.running (.initializePanel address pc rf) 0)).setAddr (some (BitVec.ofNat 7 address)))
      hb (a := BitVec.ofNat 7 address) rfl,
    andThen_next, andThen_next]
  rw [← State.markAll_setSeq, show ∀ (w : State) q a vs, (w.fbStore a vs).setSeq q = (w.setSeq q).fbStore a vs
    from fun _ _ _ _ => rfl, show ∀ (w : State) q a, (w.setSeq q).setAddr a = (w.setAddr a).setSeq q from fun _ _ _ => rfl,
    State.perform_called (s := s.setAddr (some (BitVec.ofNat 7 address))) hs]
  rfl

end Sys2Proof.Machine
end

