-- ==== Sys2Proof/Laws/Memory.lean ====
section
/-!
SUPPORT. What the memory operations do, byte by byte, and that they keep the canonical form.
-/

namespace Sys2Proof.Machine

@[simp] theorem Mem.lookup_nil (a : Nat) : Mem.lookup [] a = none := rfl

theorem Mem.lookup_cons (c : Host.Cell) (m : Mem) (a : Nat) :
    Mem.lookup (c :: m) a = if a = c.1 then some c.2 else Mem.lookup m a := rfl

theorem Mem.lookup_append (m n : Mem) (a : Nat) :
    Mem.lookup (m ++ n) a = (Mem.lookup m a).or (Mem.lookup n a) := by
  induction m with
  | nil => simp
  | cons c m ih => simp only [List.cons_append, Mem.lookup_cons]; split <;> simp [ih]

/-- Filtering by address keeps exactly the kept addresses. -/
theorem Mem.lookup_filter_addr (q : Nat → Bool) (m : Mem) (a : Nat) :
    Mem.lookup (m.filter fun c => q c.1) a = if q a then Mem.lookup m a else none := by
  induction m with
  | nil => simp
  | cons c m ih =>
    by_cases hc : a = c.1
    · subst hc; by_cases hq : q c.1 <;> simp [hq, Mem.lookup_cons, ih]
    · by_cases hq : q c.1 <;> simp [hq, Mem.lookup_cons, ih, hc]

/-- A run of bytes lists, of its own addresses, those whose byte is kept. -/
theorem Mem.lookup_cellsFrom (keep : Byte → Bool) (vs : List Byte) (b a : Nat) :
    Mem.lookup ((Mem.cellsFrom b vs).filter fun c => keep c.2) a
      = if b ≤ a then (vs[a - b]?).filter keep else none := by
  induction vs generalizing b with
  | nil => simp [Mem.cellsFrom]
  | cons v vs ih =>
    have ih := ih (b + 1)
    rcases Nat.lt_trichotomy a b with h | h | h
    · have h1 : ¬ b ≤ a := by omega
      have h2 : ¬ b + 1 ≤ a := by omega
      have h3 : a ≠ b := by omega
      simp only [h2, if_false] at ih
      by_cases hk : keep v <;> simp [Mem.cellsFrom, hk, Mem.lookup_cons, h1, h3, ih]
    · subst h
      have h2 : ¬ a + 1 ≤ a := by omega
      simp only [h2, if_false] at ih
      by_cases hk : keep v <;> simp [Mem.cellsFrom, hk, Mem.lookup_cons, ih, Option.filter]
    · have h1 : b ≤ a := by omega
      have h2 : b + 1 ≤ a := by omega
      have h3 : a ≠ b := by omega
      obtain ⟨k, rfl⟩ : ∃ k, a = b + 1 + k := ⟨a - (b + 1), by omega⟩
      have h4 : b + 1 + k - b = k + 1 := by omega
      have h5 : b + 1 + k - (b + 1) = k := by omega
      simp only [h2, if_true, h5] at ih
      by_cases hk : keep v <;>
        simp [Mem.cellsFrom, hk, Mem.lookup_cons, h1, h3, ih, h4]

/-- A write of a run of bytes, byte by byte: inside the run the byte written, if it is kept; outside, as before. -/
theorem Mem.lookup_blit (keep : Byte → Bool) (m : Mem) (b : Nat) (vs : List Byte) (a : Nat) :
    Mem.lookup (Mem.blit keep m b vs) a
      = if b ≤ a ∧ a < b + vs.length then (vs[a - b]?).filter keep else Mem.lookup m a := by
  have e1 := Mem.lookup_filter_addr (fun x => decide (x < b)) m a
  have e2 := Mem.lookup_filter_addr (fun x => decide (b + vs.length ≤ x)) m a
  simp only [Mem.blit, Mem.lookup_append, Mem.lookup_cellsFrom, e1, e2]
  rcases Nat.lt_or_ge a b with h | h
  · have h1 : ¬ b ≤ a := by omega
    have h2 : ¬ b + vs.length ≤ a := by omega
    simp [h, h1, h2]
  · have h1 : ¬ a < b := by omega
    rcases Nat.lt_or_ge a (b + vs.length) with h2 | h2
    · have h3 : ¬ b + vs.length ≤ a := by omega
      simp [h, h1, h2, h3]
    · have h3 : ¬ a < b + vs.length := by omega
      have h4 : vs.length ≤ a - b := by omega
      simp [h, h1, h2, h3, List.getElem?_eq_none h4]

/-- `MemWrite` on the framebuffer, read back byte by byte. -/
theorem fbLookup_fbWrite (m : Mem) (b : Nat) (vs : List Byte) (a : Nat) :
    fbLookup (fbWrite m b vs) a
      = if b ≤ a ∧ a < b + vs.length then (vs[a - b]?).getD 0#8 else fbLookup m a := by
  simp only [fbLookup, fbWrite, Mem.lookup_blit]
  split
  · rcases vs[a - b]? with _ | v
    · rfl
    · by_cases hv : v = 0#8 <;> simp [Option.filter, keepNonzero, hv]
  · rfl

/-- A write of known bytes, read back byte by byte. -/
theorem lookup_knownWrite (m : Mem) (b : Nat) (vs : List Byte) (a : Nat) :
    Mem.lookup (knownWrite m b vs) a
      = if b ≤ a ∧ a < b + vs.length then vs[a - b]? else Mem.lookup m a := by
  simp only [knownWrite, Mem.lookup_blit]
  split
  · rcases vs[a - b]? with _ | v <;> simp [Option.filter, keepAll]
  · rfl

/-! ### The canonical form -/

@[simp] theorem Mem.wfFrom_nil (keep : Byte → Bool) (hi lo : Nat) : Mem.wfFrom keep hi lo [] = true := rfl

theorem Mem.wfFrom_cons (keep : Byte → Bool) (hi lo : Nat) (c : Host.Cell) (m : Mem) :
    Mem.wfFrom keep hi lo (c :: m) = true
      ↔ (lo ≤ c.1 ∧ c.1 < hi) ∧ keep c.2 = true ∧ Mem.wfFrom keep hi (c.1 + 1) m = true := by
  simp [Mem.wfFrom, and_assoc]

/-- A lower bound may be lowered. -/
theorem Mem.wfFrom_mono {keep : Byte → Bool} {hi lo lo' : Nat} {m : Mem} (h : lo' ≤ lo)
    (hm : Mem.wfFrom keep hi lo m = true) : Mem.wfFrom keep hi lo' m = true := by
  cases m with
  | nil => rfl
  | cons c m =>
    rw [Mem.wfFrom_cons] at *
    exact ⟨⟨by omega, hm.1.2⟩, hm.2⟩

/-- Filtering keeps the canonical form. -/
theorem Mem.wfFrom_filter {keep : Byte → Bool} {hi lo : Nat} {m : Mem} (q : Host.Cell → Bool)
    (hm : Mem.wfFrom keep hi lo m = true) : Mem.wfFrom keep hi lo (m.filter q) = true := by
  induction m generalizing lo with
  | nil => rfl
  | cons c m ih =>
    rw [Mem.wfFrom_cons] at hm
    have ih := ih hm.2.2
    by_cases hq : q c
    · simp only [List.filter_cons, hq, if_true, Mem.wfFrom_cons]; exact ⟨hm.1, hm.2.1, ih⟩
    · simp only [List.filter_cons, hq]; exact Mem.wfFrom_mono (by omega) ih

/-- Two canonical memories, the second wholly above the first, are one. -/
theorem Mem.wfFrom_append {keep : Byte → Bool} {hi lo mid : Nat} {m n : Mem}
    (hm : Mem.wfFrom keep hi lo m = true) (hb : ∀ c ∈ m, c.1 < mid) (hlo : lo ≤ mid)
    (hn : Mem.wfFrom keep hi mid n = true) : Mem.wfFrom keep hi lo (m ++ n) = true := by
  induction m generalizing lo with
  | nil => exact Mem.wfFrom_mono hlo hn
  | cons c m ih =>
    rw [Mem.wfFrom_cons] at hm
    rw [List.cons_append, Mem.wfFrom_cons]
    have hc : c.1 < mid := hb c (by simp)
    exact ⟨hm.1, hm.2.1, ih hm.2.2 (fun d hd => hb d (by simp [hd])) (by omega)⟩

/-- The kept cells of a run are canonical, and lie in the run. -/
theorem Mem.wfFrom_cellsFrom (keep : Byte → Bool) (hi b : Nat) (vs : List Byte) (h : b + vs.length ≤ hi) :
    Mem.wfFrom keep hi b ((Mem.cellsFrom b vs).filter fun c => keep c.2) = true
      ∧ ∀ c ∈ (Mem.cellsFrom b vs).filter (fun c => keep c.2), c.1 < b + vs.length := by
  induction vs generalizing b with
  | nil => simp [Mem.cellsFrom]
  | cons v vs ih =>
    simp only [List.length_cons] at h
    obtain ⟨h1, h2⟩ := ih (b + 1) (by omega)
    by_cases hk : keep v
    · simp only [Mem.cellsFrom, List.filter_cons, hk, if_true, Mem.wfFrom_cons, List.length_cons]
      refine ⟨⟨⟨by omega, by omega⟩, trivial, h1⟩, fun c hc => ?_⟩
      rcases List.mem_cons.1 hc with rfl | hc
      · simp
      · have := h2 c hc; omega
    · simp only [Mem.cellsFrom, List.filter_cons, hk, List.length_cons]
      exact ⟨Mem.wfFrom_mono (by omega) h1, fun c hc => by have := h2 c hc; omega⟩

/-- Filtering by a lower bound raises the lower bound. -/
theorem Mem.wfFrom_above {keep : Byte → Bool} {hi lo : Nat} (b : Nat) {m : Mem}
    (hm : Mem.wfFrom keep hi lo m = true) :
    Mem.wfFrom keep hi b (m.filter fun c => decide (b ≤ c.1)) = true := by
  induction m generalizing lo with
  | nil => rfl
  | cons c m ih =>
    rw [Mem.wfFrom_cons] at hm
    by_cases hc : b ≤ c.1
    · simp only [List.filter_cons, hc, decide_true, if_true, Mem.wfFrom_cons]
      exact ⟨⟨trivial, hm.1.2⟩, hm.2.1, Mem.wfFrom_filter _ hm.2.2⟩
    · simp only [List.filter_cons, hc, decide_false]; exact ih hm.2.2

/-- Every write inside the address space keeps the canonical form. -/
theorem Mem.wfFrom_blit {keep : Byte → Bool} {hi : Nat} {m : Mem} (hm : Mem.wfFrom keep hi 0 m = true)
    (b : Nat) (vs : List Byte) (h : b + vs.length ≤ hi) :
    Mem.wfFrom keep hi 0 (Mem.blit keep m b vs) = true := by
  obtain ⟨h1, h2⟩ := Mem.wfFrom_cellsFrom keep hi b vs h
  have low : Mem.wfFrom keep hi 0 (m.filter (fun c => decide (c.1 < b))
      ++ (Mem.cellsFrom b vs).filter (fun c => keep c.2)) = true :=
    Mem.wfFrom_append (Mem.wfFrom_filter _ hm) (fun c hc => by simpa using (List.mem_filter.1 hc).2) (by omega) h1
  refine Mem.wfFrom_append low (fun c hc => ?_) (by omega) (Mem.wfFrom_above (b + vs.length) hm)
  rcases List.mem_append.1 hc with hc | hc
  · have : c.1 < b := by simpa using (List.mem_filter.1 hc).2
    omega
  · exact h2 c hc

/-- Every framebuffer write inside `FB` keeps the canonical form. -/
theorem Memory.wf_fbWrite {m : Mem} (hm : Memory.wf m = true) (b : Nat) (vs : List Byte)
    (h : b + vs.length ≤ 1024) : Memory.wf (fbWrite m b vs) = true :=
  Mem.wfFrom_blit hm b vs h

/-- Every write of known bytes inside the space keeps the canonical form. -/
theorem Memory.wfKnown_knownWrite {m : Mem} (hm : Memory.wfKnown m = true) (b : Nat) (vs : List Byte)
    (h : b + vs.length ≤ 1024) : Memory.wfKnown (knownWrite m b vs) = true :=
  Mem.wfFrom_blit hm b vs h

/-- The memories of the constructed state are canonical. -/
theorem State.reset_memories_wf :
    Memory.wf State.reset.fb = true ∧ Memory.wfKnown State.reset.shadow = true
      ∧ Memory.wfKnown State.reset.panel.gram = true :=
  ⟨rfl, rfl, rfl⟩

end Sys2Proof.Machine
end

