-- ==== Sys2Proof/Laws/PerInstr.lean ====
section
/-!
SUPPORT. Statements about each instruction as syntax, one lemma per constructor. `HasCode`: every row but the operations is
written on the wire, and an operation has no code of any kind (spec/92_eei_decisions.md D27).
-/

namespace Sys2Proof.Laws.HasCode

/-- The encoder writes the instruction exactly when it is no operation. -/
def Statement (i : Instr) : Prop :=
  ∀ (cfg : Config) (d : Nat) (a : BitVec 7), (encode cfg d a i).isSome = (i.slot != Slot.call)

theorem bit1 : Statement .bit1 := fun _ _ _ => rfl

theorem bit0 : Statement .bit0 := fun _ _ _ => rfl

theorem ackRelease : Statement .ackRelease := fun _ _ _ => rfl

theorem ackDriveLow : Statement .ackDriveLow := fun _ _ _ => rfl

theorem ackHoldLast : Statement .ackHoldLast := fun _ _ _ => rfl

theorem startCell : Statement .startCell := fun _ _ _ => rfl

theorem stopCell : Statement .stopCell := fun _ _ _ => rfl

theorem byteCells (v : Byte) : Statement (.byteCells v) := fun _ _ _ => rfl

theorem frame (addr : BitVec 7) (ctl : Control) (payload : List Byte) : Statement (.frame addr ctl payload) := fun _ _ _ => rfl

theorem addrByte (a : BitVec 7) : Statement (.addrByte a) := fun _ _ _ => rfl

theorem ctrlCmd : Statement .ctrlCmd := fun _ _ _ => rfl

theorem ctrlData : Statement .ctrlData := fun _ _ _ => rfl

theorem displayOff : Statement .displayOff := fun _ _ _ => rfl

theorem displayOn : Statement .displayOn := fun _ _ _ => rfl

theorem cmdContrast (v : Byte) : Statement (.cmdContrast v) := fun _ _ _ => rfl

theorem setPage (p : BitVec 3) : Statement (.setPage p) := fun _ _ _ => rfl

theorem setColLow (l : BitVec 4) : Statement (.setColLow l) := fun _ _ _ => rfl

theorem setColHigh (h : BitVec 4) : Statement (.setColHigh h) := fun _ _ _ => rfl

theorem positionTriplet (p : BitVec 3) (l h : BitVec 4) : Statement (.positionTriplet p l h) := fun _ _ _ => rfl

theorem dataByte (d : Byte) : Statement (.dataByte d) := fun _ _ _ => rfl

theorem initDisplayOff : Statement .initDisplayOff := fun _ _ _ => rfl

theorem initMuxRatio : Statement .initMuxRatio := fun _ _ _ => rfl

theorem initDisplayOffset : Statement .initDisplayOffset := fun _ _ _ => rfl

theorem initClockDivide (f : Byte) : Statement (.initClockDivide f) := fun _ _ _ => rfl

theorem initChargePumpEnableSeq : Statement .initChargePumpEnableSeq := fun _ _ _ => rfl

theorem initSegComRemap : Statement .initSegComRemap := fun _ _ _ => rfl

theorem initChargePump : Statement .initChargePump := fun _ _ _ => rfl

theorem initDisplayOn : Statement .initDisplayOn := fun _ _ _ => rfl

theorem initAddressingMode : Statement .initAddressingMode := fun _ _ _ => rfl

theorem initPrecharge (p : Byte) : Statement (.initPrecharge p) := fun _ _ _ => rfl

theorem initVcomhDeselect : Statement .initVcomhDeselect := fun _ _ _ => rfl

theorem frameCommand1 (c : Byte) : Statement (.frameCommand1 c) := fun _ _ _ => rfl

theorem frameCommand2 (c1 c2 : Byte) : Statement (.frameCommand2 c1 c2) := fun _ _ _ => rfl

theorem framePosition (page : BitVec 3) (column : BitVec 7) : Statement (.framePosition page column) := fun _ _ _ => rfl

theorem frameData (ds : List Byte) : Statement (.frameData ds) := fun _ _ _ => rfl

theorem frameInit (pc rf : Byte) : Statement (.frameInit pc rf) := fun _ _ _ => rfl

theorem sdaSetHigh : Statement .sdaSetHigh := fun _ _ _ => rfl

theorem sdaSetLow : Statement .sdaSetLow := fun _ _ _ => rfl

theorem sdaSetDirectionOutput : Statement .sdaSetDirectionOutput := fun _ _ _ => rfl

theorem sdaSetDirectionInput : Statement .sdaSetDirectionInput := fun _ _ _ => rfl

theorem sclSetHigh : Statement .sclSetHigh := fun _ _ _ => rfl

theorem sclSetLow : Statement .sclSetLow := fun _ _ _ => rfl

theorem sclSetDirectionOutput : Statement .sclSetDirectionOutput := fun _ _ _ => rfl

theorem sclSetDirectionInput : Statement .sclSetDirectionInput := fun _ _ _ => rfl

theorem precisionDelay (us : Nat) : Statement (.precisionDelay us) := fun _ _ _ => rfl

theorem clockBit (b : Bool) : Statement (.clockBit b) := fun _ _ _ => rfl

theorem ackSlot : Statement .ackSlot := fun _ _ _ => rfl

theorem byteOut (v : Byte) : Statement (.byteOut v) := fun _ _ _ => rfl

theorem beginFrame (deviceAddress : BitVec 7) : Statement (.beginFrame deviceAddress) := fun _ _ _ => rfl

theorem writeBytes (buffer : List Byte) (length : Nat) : Statement (.writeBytes buffer length) := fun _ _ _ => rfl

theorem endFrame : Statement .endFrame := fun _ _ _ => rfl

theorem transaction (bytes : List Byte) : Statement (.transaction bytes) := fun _ _ _ => rfl

theorem sendCommand (c : Byte) : Statement (.sendCommand c) := fun _ _ _ => rfl

theorem sendCommand2 (c1 c2 : Byte) : Statement (.sendCommand2 c1 c2) := fun _ _ _ => rfl

theorem setPosition (column page : Int) : Statement (.setPosition column page) := fun _ _ _ => rfl

theorem writeDataBlock (buffer : List Byte) (length : Nat) : Statement (.writeDataBlock buffer length) := fun _ _ _ => rfl

theorem initializePanel (address preChargePeriod refreshFrequency : Nat) : Statement (.initializePanel address preChargePeriod refreshFrequency) := fun _ _ _ => rfl

theorem setPower (on : Bool) : Statement (.setPower on) := fun _ _ _ => rfl

theorem setContrast (value : Byte) : Statement (.setContrast value) := fun _ _ _ => rfl

theorem pixel (x y : Int) : Statement (.pixel x y) := fun _ _ _ => rfl

theorem setPixel (x y : Int) (color : Bool) : Statement (.setPixel x y color) := fun _ _ _ => rfl

theorem setPixelByte (x y : Int) (color : Bool) : Statement (.setPixelByte x y color) := fun _ _ _ => rfl

theorem setPixelImmediate (x y : Int) : Statement (.setPixelImmediate x y) := fun _ _ _ => rfl

theorem fill (value : Byte) : Statement (.fill value) := fun _ _ _ => rfl

theorem loadBlock (buffer : List Byte) (byteCount byteOffset : Int) : Statement (.loadBlock buffer byteCount byteOffset) := fun _ _ _ => rfl

theorem flush : Statement .flush := fun _ _ _ => rfl

theorem flushByte : Statement .flushByte := fun _ _ _ => rfl

end Sys2Proof.Laws.HasCode
end

