-- ==== Sys2Proof/Tests/Slice0.lean ====
section
/-!
SUPPORT. The model's own tests: ill-formed operands, words written out from spec/30_encoding.md, single steps against the
vectors of spec/95_test_vectors.md, and for every obligation with hypotheses a witness that meets them.
-/

namespace Sys2Proof.Tests

open Sys2Proof.Machine

/-! ### The bench -/

/-- The illustrative instantiation of vector V30i. -/
def benchCfg (v : Variant) (m : AckMode) : Config where
  ackMode := m
  variant := v
  opcMux := 0xA8#8
  opcOffset := 0xD3#8
  opcClkDiv := 0xD5#8
  seqCpEn := []
  seqRemap := [0xA1#8, 0xC8#8]
  opcChgPump := 0x8D#8
  opcAddrMode := 0x20#8
  modeHorizontal := 0x00#8
  opcPrechg := 0xD9#8
  opcVcomh := 0xDB#8
  minBrightness := 0x00#8

/-- An initialised instance between two operations, `ADDR = 0x3C`, `FB` all zero, no page flag set, every shadow unknown. -/
def bench (v : Variant) : State where
  cfg := benchCfg v .release
  pins := { sda := { latch := .high, dir := .input }, scl := { latch := .high, dir := .input } }
  addr := some 0x3C#7
  delay := 5
  busOpen := false
  seq := .idle
  fb := []
  dirty := Vector.replicate 8 false
  shadow := []
  trace := []
  rx := { active := false, count := 0, shift := 0#8, bytes := [] }
  panel := { address := 0x3C#7, gram := [], curPage := 0#3, curCol := 0#7, displayOn := false, contrast := 0#8 }
  requests := []
  result := .nothing
  draws := 0

/-- The bench inside a frame: the bus open, both lines driven low. -/
def openBench : State :=
  { bench .pageBatched with
    busOpen := true
    pins := { sda := { latch := .low, dir := .output }, scl := { latch := .low, dir := .output } } }

/-- The bench with every page flag set. -/
def dirtyBench : State := (bench .pageBatched).setDirty (Vector.replicate 8 true)

/-- An observation of the next state, if there is one. -/
def observe {α : Type} (o : Out) (f : State → α) : Option α :=
  match o with
  | .next t => some (f t)
  | _ => none

/-- The frames an instruction puts on the wire of a state with an empty `TRACE` (R73). -/
def frames (i : Instr) (s : State) : Option (List (List Byte)) :=
  observe (exec i s) fun t => s.rx.frames s.pins t.trace

/-- The events an instruction appends to an empty `TRACE`. -/
def events (i : Instr) (s : State) : Option (List Event) :=
  observe (exec i s) State.trace

/-! ### Ill-formed operands -/

theorem test_illformed_transaction_empty : WellFormed (.transaction []) = false := by decide

theorem test_illformed_transaction_control : WellFormed (.transaction [0x80#8, 0xAE#8]) = false := by decide

theorem test_illformed_writeBytes : WellFormed (.writeBytes [0x00#8] 2) = false := by decide

theorem test_illformed_writeDataBlock : WellFormed (.writeDataBlock [] 1) = false := by decide

theorem test_illformed_setPosition :
    WellFormed (.setPosition 128 0) = false ∧ WellFormed (.setPosition 0 8) = false
      ∧ WellFormed (.setPosition (-1) 0) = false ∧ WellFormed (.setPosition 0 (-1)) = false := by decide

theorem test_illformed_initialize :
    WellFormed (.initializePanel 128 0 0) = false ∧ WellFormed (.initializePanel 0 256 0) = false
      ∧ WellFormed (.initializePanel 0 0 256) = false := by decide

theorem test_illformed_pixel :
    WellFormed (.pixel 128 0) = false ∧ WellFormed (.pixel 0 64) = false ∧ WellFormed (.pixel (-1) 0) = false := by decide

theorem test_illformed_loadBlock :
    WellFormed (.loadBlock [] (-1) 0) = false ∧ WellFormed (.loadBlock [] 0 (-128)) = false
      ∧ WellFormed (.loadBlock (List.replicate 129 0#8) 129 896) = false
      ∧ WellFormed (.loadBlock [] 1 0) = false := by decide

/-! ### Decoding: cells, bytes and frames, by their events (V16 to V20, R54, R55) -/

theorem test_decode_bit1 :
    decodeEvents .bitCell [.sdaHigh, .delay 5, .sclHigh, .delay 5, .sclLow] = .ok (.bit1, []) := rfl

theorem test_decode_bit0 :
    decodeEvents .bitCell [.sdaLow, .delay 5, .sclHigh, .delay 5, .sclLow] = .ok (.bit0, []) := rfl

theorem test_decode_ackRelease :
    decodeEvents .ackCell [.sdaIn, .delay 5, .sclHigh, .delay 5, .sclLow, .sdaOut] = .ok (.ackRelease, []) := rfl

theorem test_decode_ackDriveLow :
    decodeEvents .ackCell [.sdaLow, .delay 5, .sclHigh, .delay 5, .sclLow] = .ok (.ackDriveLow, []) := rfl

theorem test_decode_ackHoldLast :
    decodeEvents .ackCell [.delay 5, .sclHigh, .delay 5, .sclLow] = .ok (.ackHoldLast, []) := rfl

theorem test_decode_start :
    decodeEvents .edgeCell [.sdaHigh, .sclHigh, .sdaOut, .sclOut, .delay 5, .sdaLow, .delay 5, .sclLow]
      = .ok (.startCell, []) := rfl

theorem test_decode_stop :
    decodeEvents .edgeCell [.sdaLow, .delay 5, .sclHigh, .delay 5, .sdaHigh, .sdaIn, .sclIn] = .ok (.stopCell, []) := rfl

/-- The five events of a bit cell, `x` the data event (R51). -/
def cell (x : Event) : List Event := [x, .delay 5, .sclHigh, .delay 5, .sclLow]

/-- An ACK cell in mode `release` (R52). -/
def ackReleaseCell : List Event := [.sdaIn, .delay 5, .sclHigh, .delay 5, .sclLow, .sdaOut]

/-- V20: `byteOut(0x78)` (`0111 1000`), mode `release`. -/
def events78 : List Event :=
  (([.sdaLow, .sdaHigh, .sdaHigh, .sdaHigh, .sdaHigh, .sdaLow, .sdaLow, .sdaLow] : List Event).map cell).flatten
    ++ ackReleaseCell

/-- START (R54). -/
def startEvents : List Event :=
  [.sdaHigh, .sclHigh, .sdaOut, .sclOut, .delay 5, .sdaLow, .delay 5, .sclLow]

/-- STOP (R55). -/
def stopEvents : List Event := [.sdaLow, .delay 5, .sclHigh, .delay 5, .sdaHigh, .sdaIn, .sclIn]

theorem test_decode_byte : decodeEvents .byteCells events78 = .ok (.byteCells 0x78#8, []) := by decide

/-- A frame `S 78 00 P` from its cells (R56). -/
theorem test_decode_frame :
    decodeEvents .frame (startEvents ++ events78 ++ (List.replicate 8 (cell .sdaLow)).flatten ++ ackReleaseCell
      ++ stopEvents) = .ok (.frame 0x3C#7 .command [], []) := by decide +kernel

/-! ### Decoding: bytes by their position (R57 to R68; V28) -/

theorem test_decode_addrByte :
    decodeBytes (benchCfg .pageBatched .release) .address [0xFE#8] = .ok (.addrByte 0x7F#7, [])
      ∧ decodeBytes (benchCfg .pageBatched .release) .address [0x79#8] = .error .readAddress := ⟨rfl, rfl⟩

theorem test_decode_ctrlCmd :
    decodeBytes (benchCfg .pageBatched .release) .control [0x00#8] = .ok (.ctrlCmd, [])
      ∧ decodeBytes (benchCfg .pageBatched .release) .control [0x80#8] = .error .badControl := ⟨rfl, rfl⟩

theorem test_decode_ctrlData :
    decodeBytes (benchCfg .pageBatched .release) .control [0x40#8] = .ok (.ctrlData, []) := rfl

theorem test_decode_displayOff :
    decodeBytes (benchCfg .pageBatched .release) .command [0b10101110#8] = .ok (.displayOff, []) := rfl

theorem test_decode_displayOn :
    decodeBytes (benchCfg .pageBatched .release) .command [0b10101111#8] = .ok (.displayOn, []) := rfl

/-- R71: the value byte of a contrast of `0xAE` is no command. -/
theorem test_decode_cmdContrast :
    decodeBytes (benchCfg .pageBatched .release) .command [0x81#8, 0xAE#8, 0xAF#8]
      = .ok (.cmdContrast 0xAE#8, [0xAF#8]) := rfl

theorem test_decode_setPage :
    decodeBytes (benchCfg .pageBatched .release) .command [0b10110111#8] = .ok (.setPage 7#3, [])
      ∧ decodeBytes (benchCfg .pageBatched .release) .command [0b10111000#8] = .error .unknownCommand := ⟨rfl, rfl⟩

theorem test_decode_setColLow :
    decodeBytes (benchCfg .pageBatched .release) .command [0b00001111#8] = .ok (.setColLow 15#4, []) := rfl

theorem test_decode_setColHigh :
    decodeBytes (benchCfg .pageBatched .release) .command [0b00010111#8] = .ok (.setColHigh 7#4, []) := rfl

/-- V33c: column 37, page 7. -/
theorem test_decode_positionTriplet :
    decodeBytes (benchCfg .pageBatched .release) .position [0xB7#8, 0x05#8, 0x12#8]
      = .ok (.positionTriplet 7#3 5#4 2#4, []) := rfl

theorem test_decode_dataByte :
    decodeBytes (benchCfg .pageBatched .release) .data [0xAE#8] = .ok (.dataByte 0xAE#8, []) := rfl

/-- The eleven items of the initialisation sequence, in the instantiation of V30i. -/
theorem test_decode_initItems :
    decodeBytes (benchCfg .pageBatched .release) (.initItem 1) [0xAE#8] = .ok (.initDisplayOff, [])
      ∧ decodeBytes (benchCfg .pageBatched .release) (.initItem 2) [0xA8#8, 0x3F#8] = .ok (.initMuxRatio, [])
      ∧ decodeBytes (benchCfg .pageBatched .release) (.initItem 3) [0xD3#8, 0x00#8] = .ok (.initDisplayOffset, [])
      ∧ decodeBytes (benchCfg .pageBatched .release) (.initItem 4) [0xD5#8, 0x80#8] = .ok (.initClockDivide 0x80#8, [])
      ∧ decodeBytes (benchCfg .pageBatched .release) (.initItem 5) [] = .ok (.initChargePumpEnableSeq, [])
      ∧ decodeBytes (benchCfg .pageBatched .release) (.initItem 6) [0xA1#8, 0xC8#8] = .ok (.initSegComRemap, []) :=
  ⟨rfl, rfl, rfl, rfl, rfl, rfl⟩

theorem test_decode_initItems_rest :
    decodeBytes (benchCfg .pageBatched .release) (.initItem 7) [0x8D#8, 0x14#8] = .ok (.initChargePump, [])
      ∧ decodeBytes (benchCfg .pageBatched .release) (.initItem 8) [0xAF#8] = .ok (.initDisplayOn, [])
      ∧ decodeBytes (benchCfg .pageBatched .release) (.initItem 9) [0x20#8, 0x00#8] = .ok (.initAddressingMode, [])
      ∧ decodeBytes (benchCfg .pageBatched .release) (.initItem 10) [0xD9#8, 0xF1#8] = .ok (.initPrecharge 0xF1#8, [])
      ∧ decodeBytes (benchCfg .pageBatched .release) (.initItem 11) [0xDB#8, 0x00#8] = .ok (.initVcomhDeselect, []) :=
  ⟨rfl, rfl, rfl, rfl, rfl⟩

/-! ### Decoding: frame shapes (R74; V31 to V36, V30i) -/

theorem test_decode_frameCommand1 :
    decodeShape (benchCfg .pageBatched .release) [0x78#8, 0x00#8, 0xAF#8] = .ok (0x3C#7, .frameCommand1 0xAF#8) := rfl

theorem test_decode_frameCommand2 :
    decodeShape (benchCfg .pageBatched .release) [0x78#8, 0x00#8, 0x81#8, 0x7F#8]
      = .ok (0x3C#7, .frameCommand2 0x81#8 0x7F#8) := rfl

theorem test_decode_framePosition :
    decodeShape (benchCfg .pageBatched .release) [0x78#8, 0x00#8, 0xB7#8, 0x0F#8, 0x17#8]
      = .ok (0x3C#7, .framePosition 7#3 127#7) := rfl

theorem test_decode_frameData :
    decodeShape (benchCfg .pageBatched .release) [0x78#8, 0x40#8, 0xFF#8, 0x01#8]
      = .ok (0x3C#7, .frameData [0xFF#8, 0x01#8]) := rfl

theorem test_decode_frameInit :
    decodeShape (benchCfg .pageBatched .release)
      [0x78#8, 0x00#8, 0xAE#8, 0xA8#8, 0x3F#8, 0xD3#8, 0x00#8, 0xD5#8, 0x80#8, 0xA1#8, 0xC8#8, 0x8D#8, 0x14#8, 0xAF#8,
        0x20#8, 0x00#8, 0xD9#8, 0xF1#8, 0xDB#8, 0x00#8] = .ok (0x3C#7, .frameInit 0xF1#8 0x80#8) := by decide

/-- An operation has no code (D27). -/
theorem test_no_code (cfg : Config) (d : Nat) (a : BitVec 7) :
    encode cfg d a .flush = none ∧ encode cfg d a (.setPower true) = none ∧ encode cfg d a .sdaSetHigh = none :=
  ⟨rfl, rfl, rfl⟩

/-! ### Pin primitives (V10 to V15) -/

/-- The bench with given line cells. -/
def withPins (sda scl : Line) : State := { bench .pageBatched with pins := { sda := sda, scl := scl } }

theorem test_sdaSetHigh :
    observe (exec .sdaSetHigh (withPins ⟨.low, .output⟩ ⟨.low, .input⟩)) (fun t => (t.pins, t.trace))
      = some (⟨⟨.high, .output⟩, ⟨.low, .input⟩⟩, [.sdaHigh]) := rfl

theorem test_sdaSetLow :
    observe (exec .sdaSetLow (withPins ⟨.high, .input⟩ ⟨.high, .output⟩)) (fun t => (t.pins, t.pins.dataWire))
      = some (⟨⟨.low, .input⟩, ⟨.high, .output⟩⟩, .high) := rfl

theorem test_sdaSetDirectionOutput :
    observe (exec .sdaSetDirectionOutput (withPins ⟨.low, .input⟩ ⟨.high, .input⟩)) (fun t => (t.pins, t.pins.dataWire))
      = some (⟨⟨.low, .output⟩, ⟨.high, .input⟩⟩, .low) := rfl

theorem test_sdaSetDirectionInput :
    observe (exec .sdaSetDirectionInput (withPins ⟨.low, .output⟩ ⟨.low, .output⟩)) (fun t => (t.pins, t.pins.dataWire))
      = some (⟨⟨.low, .input⟩, ⟨.low, .output⟩⟩, .high) := rfl

theorem test_sclSetHigh :
    observe (exec .sclSetHigh (withPins ⟨.low, .output⟩ ⟨.high, .output⟩)) (fun t => (t.pins, t.trace))
      = some (⟨⟨.low, .output⟩, ⟨.high, .output⟩⟩, [.sclHigh]) := rfl

theorem test_sclSetLow :
    observe (exec .sclSetLow (withPins ⟨.high, .output⟩ ⟨.high, .output⟩)) (fun t => (t.pins, t.trace))
      = some (⟨⟨.high, .output⟩, ⟨.low, .output⟩⟩, [.sclLow]) := rfl

theorem test_sclSetDirectionOutput :
    observe (exec .sclSetDirectionOutput (withPins ⟨.low, .input⟩ ⟨.high, .input⟩)) (fun t => (t.pins, t.trace))
      = some (⟨⟨.low, .input⟩, ⟨.high, .output⟩⟩, [.sclOut]) := rfl

theorem test_sclSetDirectionInput :
    observe (exec .sclSetDirectionInput (withPins ⟨.low, .input⟩ ⟨.high, .output⟩)) (fun t => (t.pins, t.pins.clockWire))
      = some (⟨⟨.low, .input⟩, ⟨.high, .input⟩⟩, .high) := rfl

theorem test_precisionDelay : events (.precisionDelay 0) (bench .pageBatched) = some [.delay 0] := rfl

/-- R90: `SEQ` advances by one while an operation runs. -/
theorem test_seq_advances :
    observe (exec .sclSetHigh ((bench .pageBatched).setSeq (.running .flush 3))) State.seq = some (.running .flush 4) :=
  rfl

/-! ### Cells and bytes (V16 to V25) -/

theorem test_bit1 : events .bit1 (bench .pageBatched) = some (cell .sdaHigh) := by decide

theorem test_bit0 : events .bit0 (bench .pageBatched) = some (cell .sdaLow) := by decide

theorem test_ackRelease : events .ackRelease (bench .pageBatched) = some ackReleaseCell := by decide

theorem test_ackDriveLow : events .ackDriveLow (bench .pageBatched) = some (cell .sdaLow) := by decide

theorem test_ackHoldLast :
    events .ackHoldLast (bench .pageBatched) = some [.delay 5, .sclHigh, .delay 5, .sclLow] := by decide

theorem test_startCell : events .startCell (bench .pageBatched) = some startEvents := by decide

theorem test_stopCell : events .stopCell (bench .pageBatched) = some stopEvents := by decide

theorem test_clockBit : events (.clockBit true) (bench .pageBatched) = some (cell .sdaHigh) := by decide

/-- V18, V19b: the ACK slot by `ACK_SDA_MODE`. -/
theorem test_ackSlot :
    events .ackSlot (bench .pageBatched) = some ackReleaseCell
      ∧ events .ackSlot { bench .pageBatched with cfg := benchCfg .pageBatched .holdLast }
        = some [.delay 5, .sclHigh, .delay 5, .sclLow] := by decide

/-- The cells of a byte whose bits are written out, most significant first, mode `release` (R53). -/
def wireByte (bits : List Nat) : List Event :=
  (bits.map fun b => cell (if b = 1 then .sdaHigh else .sdaLow)).flatten ++ ackReleaseCell

theorem test_byteOut : events (.byteOut 0x78#8) (bench .pageBatched) = some (wireByte [0, 1, 1, 1, 1, 0, 0, 0]) := by decide

/-- V22b: `0xA5`, mode `drive_low`, 45 events, the ACK cell the last five. -/
theorem test_byteCells :
    observe (exec (.byteCells 0xA5#8) { bench .pageBatched with cfg := benchCfg .pageBatched .driveLow })
      (fun t => (t.trace.length, t.trace.drop 40)) = some (45, cell .sdaLow) := by decide

/-- V23: `begin(0x3C)`. -/
theorem test_beginFrame :
    observe (exec (.beginFrame 0x3C#7) (bench .pageBatched)) (fun t => (t.trace, t.busOpen, t.pins))
      = some (startEvents ++ events78, true, ⟨⟨.low, .output⟩, ⟨.low, .output⟩⟩) := by decide

/-- V29a. -/
theorem test_beginFrame_open : exec (.beginFrame 0x3C#7) openBench = .refused .beginWhileOpen := rfl

/-- V29e: bytes beyond `length` are not sent. -/
theorem test_writeBytes :
    events (.writeBytes [0x00#8, 0xAF#8] 1) openBench = some (wireByte [0, 0, 0, 0, 0, 0, 0, 0]) := by decide

/-- V29b, V29d. -/
theorem test_writeBytes_refused :
    exec (.writeBytes [0x00#8] 1) (bench .pageBatched) = .refused .writeWhileClosed
      ∧ exec (.writeBytes [0x00#8] 2) openBench = .refused .bufferTooShort := ⟨rfl, rfl⟩

/-- V25: `end()`. -/
theorem test_endFrame :
    observe (exec .endFrame openBench) (fun t => (t.trace, t.busOpen, t.pins))
      = some (stopEvents, false, ⟨⟨.high, .input⟩, ⟨.high, .input⟩⟩) := by decide

/-- V29c. -/
theorem test_endFrame_closed : exec .endFrame (bench .pageBatched) = .refused .endWhileClosed := rfl

/-! ### Wire rows, bit by bit (R57 to R68) -/

theorem test_addrByte : events (.addrByte 0x3D#7) openBench = some (wireByte [0, 1, 1, 1, 1, 0, 1, 0]) := by decide

theorem test_ctrlCmd : events .ctrlCmd openBench = some (wireByte [0, 0, 0, 0, 0, 0, 0, 0]) := by decide

theorem test_ctrlData : events .ctrlData openBench = some (wireByte [0, 1, 0, 0, 0, 0, 0, 0]) := by decide

theorem test_displayOff : events .displayOff openBench = some (wireByte [1, 0, 1, 0, 1, 1, 1, 0]) := by decide

theorem test_displayOn : events .displayOn openBench = some (wireByte [1, 0, 1, 0, 1, 1, 1, 1]) := by decide

theorem test_cmdContrast :
    events (.cmdContrast 0x7F#8) openBench
      = some (wireByte [1, 0, 0, 0, 0, 0, 0, 1] ++ wireByte [0, 1, 1, 1, 1, 1, 1, 1]) := by decide

theorem test_setPage : events (.setPage 5#3) openBench = some (wireByte [1, 0, 1, 1, 0, 1, 0, 1]) := by decide

theorem test_setColLow : events (.setColLow 9#4) openBench = some (wireByte [0, 0, 0, 0, 1, 0, 0, 1]) := by decide

theorem test_setColHigh : events (.setColHigh 6#4) openBench = some (wireByte [0, 0, 0, 1, 0, 1, 1, 0]) := by decide

theorem test_positionTriplet :
    events (.positionTriplet 7#3 5#4 2#4) openBench
      = some (wireByte [1, 0, 1, 1, 0, 1, 1, 1] ++ wireByte [0, 0, 0, 0, 0, 1, 0, 1]
        ++ wireByte [0, 0, 0, 1, 0, 0, 1, 0]) := by decide

theorem test_dataByte : events (.dataByte 0xE1#8) openBench = some (wireByte [1, 1, 1, 0, 0, 0, 0, 1]) := by decide

theorem test_initDisplayOff : events .initDisplayOff openBench = some (wireByte [1, 0, 1, 0, 1, 1, 1, 0]) := by decide

/-- `0x3F` is the second byte. -/
theorem test_initMuxRatio :
    observe (exec .initMuxRatio openBench) (fun t => t.trace.drop 46) = some (wireByte [0, 0, 1, 1, 1, 1, 1, 1]) := by decide

theorem test_initDisplayOffset :
    observe (exec .initDisplayOffset openBench) (fun t => t.trace.drop 46)
      = some (wireByte [0, 0, 0, 0, 0, 0, 0, 0]) := by decide

theorem test_initClockDivide :
    observe (exec (.initClockDivide 0x80#8) openBench) (fun t => t.trace.drop 46)
      = some (wireByte [1, 0, 0, 0, 0, 0, 0, 0]) := by decide

/-- Empty in the instantiation of V30i. -/
theorem test_initChargePumpEnableSeq : events .initChargePumpEnableSeq openBench = some [] := by decide

theorem test_initSegComRemap :
    events .initSegComRemap openBench
      = some (wireByte [1, 0, 1, 0, 0, 0, 0, 1] ++ wireByte [1, 1, 0, 0, 1, 0, 0, 0]) := by decide

theorem test_initChargePump :
    observe (exec .initChargePump openBench) (fun t => t.trace.drop 46)
      = some (wireByte [0, 0, 0, 1, 0, 1, 0, 0]) := by decide

theorem test_initDisplayOn : events .initDisplayOn openBench = some (wireByte [1, 0, 1, 0, 1, 1, 1, 1]) := by decide

theorem test_initAddressingMode :
    events .initAddressingMode openBench
      = some (wireByte [0, 0, 1, 0, 0, 0, 0, 0] ++ wireByte [0, 0, 0, 0, 0, 0, 0, 0]) := by decide

theorem test_initPrecharge :
    observe (exec (.initPrecharge 0xF1#8) openBench) (fun t => t.trace.drop 46)
      = some (wireByte [1, 1, 1, 1, 0, 0, 0, 1]) := by decide

theorem test_initVcomhDeselect :
    events .initVcomhDeselect openBench
      = some (wireByte [1, 1, 0, 1, 1, 0, 1, 1] ++ wireByte [0, 0, 0, 0, 0, 0, 0, 0]) := by decide

/-! ### Frames (V26, V31 to V38) -/

theorem test_frame :
    frames (.frame 0x3D#7 .data [0x81#8]) (bench .pageBatched) = some [[0x7A#8, 0x40#8, 0x81#8]] := by decide +kernel

/-- V26: 153 events, 58 of them delays. -/
theorem test_transaction :
    observe (exec (.transaction [0x00#8, 0xAF#8]) (bench .pageBatched))
      (fun t => ((bench .pageBatched).rx.frames (bench .pageBatched).pins t.trace, t.trace.length,
        (t.trace.filter isDelay).length, t.panel.displayOn))
      = some ([[0x78#8, 0x00#8, 0xAF#8]], 153, 58, true) := by decide +kernel

theorem test_frameCommand1 :
    frames (.frameCommand1 0xAE#8) (bench .pageBatched) = some [[0x78#8, 0x00#8, 0xAE#8]] := by decide +kernel

theorem test_frameCommand2 :
    frames (.frameCommand2 0x81#8 0x00#8) (bench .pageBatched) = some [[0x78#8, 0x00#8, 0x81#8, 0x00#8]] := by
  decide +kernel

theorem test_framePosition :
    frames (.framePosition 3#3 16#7) (bench .pageBatched) = some [[0x78#8, 0x00#8, 0xB3#8, 0x00#8, 0x11#8]] := by
  decide +kernel

theorem test_frameData : frames (.frameData []) (bench .pageBatched) = some [[0x78#8, 0x40#8]] := by decide +kernel

theorem test_frameInit :
    frames (.frameInit 0xF1#8 0x80#8) (bench .pageBatched)
      = some [[0x78#8, 0x00#8, 0xAE#8, 0xA8#8, 0x3F#8, 0xD3#8, 0x00#8, 0xD5#8, 0x80#8, 0xA1#8, 0xC8#8, 0x8D#8, 0x14#8,
        0xAF#8, 0x20#8, 0x00#8, 0xD9#8, 0xF1#8, 0xDB#8, 0x00#8]] := by decide +kernel

theorem test_sendCommand :
    frames (.sendCommand 0xAF#8) (bench .pageBatched) = some [[0x78#8, 0x00#8, 0xAF#8]] := by decide +kernel

theorem test_sendCommand2 :
    frames (.sendCommand2 0x81#8 0x7F#8) (bench .pageBatched) = some [[0x78#8, 0x00#8, 0x81#8, 0x7F#8]] := by
  decide +kernel

/-- V33b. -/
theorem test_setPosition :
    frames (.setPosition 127 7) (bench .pageBatched) = some [[0x78#8, 0x00#8, 0xB7#8, 0x0F#8, 0x17#8]] := by decide +kernel

/-- V33e. -/
theorem test_setPosition_refused :
    exec (.setPosition 0 8) (bench .pageBatched) = .refused .positionOutOfRange
      ∧ exec (.setPosition 128 0) (bench .pageBatched) = .refused .positionOutOfRange := ⟨rfl, rfl⟩

/-- V34a. -/
theorem test_writeDataBlock :
    frames (.writeDataBlock [0xFF#8, 0x01#8, 0x02#8] 2) (bench .pageBatched)
      = some [[0x78#8, 0x40#8, 0xFF#8, 0x01#8]] := by decide +kernel

/-- V38: a new address, the frame sent to it. -/
theorem test_initializePanel :
    observe (exec (.initializePanel 0x3D 0x00 0xFF) (bench .pageBatched))
      (fun t => (t.addr, ((bench .pageBatched).rx.frames (bench .pageBatched).pins t.trace).map (·.take 9), t.dirty[7]))
      = some (some 0x3D#7, [[0x7A#8, 0x00#8, 0xAE#8, 0xA8#8, 0x3F#8, 0xD3#8, 0x00#8, 0xD5#8, 0xFF#8]], true) := by
  decide +kernel

/-- V28e. -/
theorem test_initializePanel_refused :
    exec (.initializePanel 0x80 0 0) (bench .pageBatched) = .refused .initOperandOutOfRange := rfl

theorem test_setPower :
    frames (.setPower false) (bench .pageBatched) = some [[0x78#8, 0x00#8, 0xAE#8]]
      ∧ exec (.setPower true) State.reset = .refused .addressUnset := ⟨by decide +kernel, rfl⟩

/-- V36c: the panel takes `0xAE` as the contrast and stays on. -/
theorem test_setContrast :
    observe (exec (.setContrast 0xAE#8)
        { bench .pageBatched with panel := { (bench .pageBatched).panel with displayOn := true } })
      (fun t => (t.panel.contrast, t.panel.displayOn)) = some (0xAE#8, true) := by decide +kernel

/-! ### Framebuffer (V40 to V49) -/

/-- V42. -/
theorem test_pixel :
    observe (exec (.pixel 10 20) ((bench .pageBatched).fbStore 266 [0x10#8])) State.result = some (.pixel true) := by decide

/-- V41. -/
theorem test_setPixel :
    observe (exec (.setPixel 127 63 true) (bench .pageBatched)) (fun t => (t.fb, t.dirty.toList, t.result))
      = some ([(1023, 0x80#8)], [false, false, false, false, false, false, false, true], .status .ok) := by decide

/-- V46c. -/
theorem test_setPixel_outOfRange :
    observe (exec (.setPixel (-1) 0 true) (bench .pageBatched)) (fun t => (t.fb, t.dirty, t.result))
      = some ([], (bench .pageBatched).dirty, .status .outOfRange) := by decide

/-- V49a: set, then cleared again: the byte is clean. -/
theorem test_setPixelByte :
    observe (andThen (exec (.setPixelByte 10 20 true) ((bench .byteBatched).setShadow [(266, 0x00#8)]))
        (exec (.setPixelByte 10 20 false)))
      (fun t => (t.fb, t.shadowDirty 266, t.trace)) = some ([], false, []) := by decide

/-- V49b: an unknown shadow is dirty. -/
theorem test_setPixelByte_unknown :
    observe (exec (.setPixelByte 0 0 false) (bench .byteBatched)) (fun t => (t.fb, t.shadowDirty 0))
      = some ([], true) := by decide

/-- V55: the sending step inside `setPixel`. -/
theorem test_setPixel_immediate :
    observe (exec (.setPixel 37 63 true) ((bench .byteImmediate).setShadow [(933, 0x00#8)]))
      (fun t => ((bench .byteImmediate).rx.frames (bench .byteImmediate).pins t.trace, t.fb, t.shadow, t.trace.length))
      = some ([[0x78#8, 0x00#8, 0xB7#8, 0x05#8, 0x12#8], [0x78#8, 0x40#8, 0x80#8]], [(933, 0x80#8)], [(933, 0x80#8)],
        398) := by decide +kernel

/-- R152: a byte that is dirty and set is sent with its position; the shadow follows. -/
theorem test_setPixelImmediate :
    observe (exec (.setPixelImmediate 37 63) ((bench .byteImmediate).fbStore 933 [0x80#8]))
      (fun t => ((bench .byteImmediate).rx.frames (bench .byteImmediate).pins t.trace, t.shadow))
      = some ([[0x78#8, 0x00#8, 0xB7#8, 0x05#8, 0x12#8], [0x78#8, 0x40#8, 0x80#8]], [(933, 0x80#8)]) := by decide +kernel

/-- R199: in batched mode a drawn byte is not sent by itself. -/
theorem test_setPixelImmediate_batched :
    exec (.setPixelImmediate 37 63) ((bench .byteBatched).fbStore 933 [0x80#8])
      = .next ((bench .byteBatched).fbStore 933 [0x80#8]) := rfl

/-- V47d: row 3 set, row 4 clear. -/
theorem test_fill :
    observe (exec (.fill 0x0F#8) (bench .pageBatched))
      (fun t => (t.pixelBit 127 59, t.pixelBit 127 60, t.dirty.toList, t.trace))
      = some (true, false, List.replicate 8 true, []) := by decide +kernel

/-- V48b: the offset 300 is rounded down to 256, page 2. -/
theorem test_loadBlock :
    observe (exec (.loadBlock [0x11#8, 0x22#8] 2 300) (bench .pageBatched)) (fun t => (t.fb, t.dirty.toList))
      = some ([(256, 0x11#8), (257, 0x22#8)], [false, false, true, false, false, false, false, false]) := by decide

/-- V48c, V48g. -/
theorem test_loadBlock_refused :
    exec (.loadBlock [0x11#8] 1 300) (bench .byteBatched) = .refused .loadBlockUnaligned
      ∧ exec (.loadBlock [0x11#8] 1 1024) (bench .pageBatched) = .refused .loadBlockOutOfRange
      ∧ exec (.loadBlock [] (-1) 0) (bench .pageBatched) = .refused .loadBlockNegative := ⟨rfl, rfl, rfl⟩

/-! ### Flush (V50 to V54) -/

/-- V50. -/
theorem test_flush_clean : exec .flush (bench .pageBatched) = .next (bench .pageBatched) := rfl

/-- V51: page 2 alone: its position frame first, 6240 events, its flag clear. -/
theorem test_flush :
    observe (exec .flush (((bench .pageBatched).fbStore 266 [0x10#8]).setDirty (Vector.ofFn fun p => decide (p.val = 2))))
      (fun t => ((bench .pageBatched).rx.frames (bench .pageBatched).pins (t.trace.take 245), t.trace.length, t.dirty))
      = some ([[0x78#8, 0x00#8, 0xB2#8, 0x00#8, 0x10#8]], 6240, Vector.replicate 8 false) := by decide +kernel

/-- R151: the page of a byte whose shadow is unknown is sent, and the shadow follows. -/
theorem test_flushByte_page :
    observe (flushPage 7 ((bench .byteBatched).setShadow [(1023, 0x01#8)]))
      (fun t => ((bench .byteBatched).rx.frames (bench .byteBatched).pins (t.trace.take 245), t.shadowEntry 1023))
      = some ([[0x78#8, 0x00#8, 0xB7#8, 0x00#8, 0x10#8]], some 0x00#8) := by decide +kernel

/-! ### The step -/

/-- A table word put where the step takes its next request runs (log entry 7). -/
theorem test_withFetchWord :
    observe (step ((bench .pageBatched).withFetchWord 8 0xAF)) State.trace
      = some (wireByte [1, 0, 1, 0, 1, 1, 1, 1]) := by decide

/-- It runs as the first step after construction, where `DELAY` is open. -/
theorem test_withFetchWord_reset :
    step (State.reset.withFetchWord 8 0xAE) = exec .displayOff State.reset := rfl

theorem test_step_idle : step (bench .pageBatched) = .next (bench .pageBatched) := rfl

/-! ### Witnesses: a concrete state and operands that meet the hypotheses of each obligation -/

/-- Construction with one request in the queue. -/
def queued : State := State.reset.setRequests [.call .sdaSetHigh]

theorem bench_settled (v : Variant) : (bench v).Settled := ⟨⟨rfl, rfl⟩, ⟨rfl, rfl⟩, rfl⟩

theorem dirtyBench_settled : dirtyBench.Settled := ⟨⟨rfl, rfl⟩, ⟨rfl, rfl⟩, rfl⟩

/-- With every flag set nothing need be on the panel yet. -/
theorem dirtyBench_synced : dirtyBench.Synced := fun _ p c _ h => by
  have hd : dirtyBench.dirty[p] = true := by
    simp only [dirtyBench, State.setDirty_dirty]
    exact Vector.getElem_replicate _
  rw [hd] at h
  cases h

/-- With every shadow unknown nothing need be on the panel yet. -/
theorem byteBench_synced : (bench .byteBatched).Synced := fun _ i v h => by cases h

/-- Two admitted pairs of selectors (R152). -/
theorem witness_ConstructionLeavesTheGivenValues :
    ¬(Granularity.byte = .page ∧ FlushMode.immediate = .immediate)
      ∧ ¬(Granularity.page = .page ∧ FlushMode.batched = .immediate) := by decide

theorem witness_EveryStepKeepsTheInvariant : queued.Inv ∧ ∃ t, step queued = .next t :=
  ⟨⟨⟨rfl, rfl, rfl⟩, fun _ => ⟨rfl, rfl⟩, Nat.zero_le _, rfl⟩, ⟨_, rfl⟩⟩

theorem witness_EveryStepKeepsTheReplay : queued.Replayed ∧ ∃ t, step queued = .next t := ⟨⟨rfl, rfl, rfl⟩, ⟨_, rfl⟩⟩

theorem witness_TraceGrowsAndConfigurationStays : ∃ t, step queued = .next t := ⟨_, rfl⟩

theorem witness_AddrIsWrittenByInitializeOnly :
    (∃ t, exec (.initializePanel 0x3D 0 255) (bench .pageBatched) = .next t)
      ∧ ∃ t, exec .sdaSetLow (bench .pageBatched) = .next t :=
  ⟨⟨_, exec_initialize_closed rfl rfl (by decide) (by decide) (by decide)⟩, ⟨_, rfl⟩⟩

/-- Each of the writers answers, and so does an operation that is none. -/
theorem witness_FramebufferIsWrittenByFourOperationsOnly :
    (∃ t, exec (.setPixel 127 63 true) (bench .pageBatched) = .next t)
      ∧ (∃ t, exec (.setPixelByte 0 0 true) (bench .byteBatched) = .next t)
      ∧ (∃ t, exec (.fill 0xFF#8) (bench .pageBatched) = .next t)
      ∧ (∃ t, exec (.loadBlock [0x01#8] 1 0) (bench .pageBatched) = .next t)
      ∧ (∃ t, exec (.initializePanel 0 0 0) (bench .pageBatched) = .next t)
      ∧ ∃ t, exec .flush (bench .pageBatched) = .next t :=
  ⟨⟨_, (exec_setPixel_closed rfl rfl (Or.inl rfl) (x := 127) (y := 63) (by decide) (by decide) true).1⟩,
    ⟨_, (exec_setPixel_closed (s := bench .byteBatched) rfl rfl (Or.inl rfl) (x := 0) (y := 0) (by decide) (by decide)
      true).2⟩,
    ⟨_, exec_fill_closed rfl rfl 0xFF#8⟩, ⟨_, exec_loadBlock_closed (n := 1) (o := 0) (eff := 0) rfl rfl rfl (by decide) (by decide)⟩,
    ⟨_, exec_initialize_closed rfl rfl (by decide) (by decide) (by decide)⟩, ⟨_, (exec_flush_closed rfl rfl rfl).1⟩⟩

theorem witness_BusOpenIsWrittenByBeginAndEndOnly :
    (∃ t, exec (.beginFrame 0x7F#7) (bench .pageBatched) = .next t) ∧ (∃ t, exec .endFrame openBench = .next t)
      ∧ ∃ t, exec (.writeBytes [] 0) openBench = .next t := ⟨⟨_, rfl⟩, ⟨_, rfl⟩, ⟨_, rfl⟩⟩

theorem witness_BigStepAgreesWithItsExpansion :
    (∃ t, exec .flush dirtyBench = .next t) ∧ ∃ t, exec (.setPixel 0 0 true) (bench .byteImmediate) = .next t :=
  ⟨⟨_, (exec_flush_closed rfl rfl rfl).1⟩,
    ⟨_, (exec_setPixel_closed (s := bench .byteImmediate) rfl rfl (Or.inl rfl) (x := 0) (y := 0) (by decide) (by decide)
      true).1⟩⟩

/-- One state for each of the four clauses. -/
theorem witness_StepRunsTheNextRequest :
    queued.requests = .call .sdaSetHigh :: []
      ∧ (((bench .pageBatched).setRequests [.word [0xB7#8, 0x0F#8, 0x17#8]]).requests
          = .word [0xB7#8, 0x0F#8, 0x17#8] :: []
        ∧ decodeWord [0xB7#8, 0x0F#8, 0x17#8] = .ok (.positionTriplet 7#3 15#4 7#4, []))
      ∧ (((bench .pageBatched).setRequests [.word [0xFF#8]]).requests = .word [0xFF#8] :: []
        ∧ decodeWord [0xFF#8] = .error .unassignedWord)
      ∧ (bench .pageBatched).requests = [] := ⟨rfl, ⟨rfl, rfl⟩, ⟨rfl, rfl⟩, rfl⟩

/-- One operation of the seven, one row that is none, a queue of public calls. -/
theorem witness_TheDoorTakesPublicOperationsOnly :
    (∃ t, (State.reset.submit .flush) = some t) ∧ State.reset.submit (.beginFrame 0#7) = none
      ∧ (∀ r ∈ State.reset.requests, ∃ i, r = Request.call i ∧ i = .flush) :=
  ⟨⟨_, rfl⟩, rfl, fun _ h => absurd h List.not_mem_nil⟩

theorem witness_PinPrimitives : ∃ t, exec (.precisionDelay 0) (bench .pageBatched) = .next t := ⟨_, rfl⟩

theorem witness_FrameShapesSendTheirBytes : (bench .pageBatched).addr = some 0x3C#7 ∧ (bench .pageBatched).busOpen = false :=
  ⟨rfl, rfl⟩

theorem witness_FrameRowSendsItsFrame : (bench .pageBatched).busOpen = false ∧ openBench.busOpen = true := ⟨rfl, rfl⟩

theorem witness_WireInvariantsOfAFrame :
    (bench .pageBatched).pins.sda.dir = .input ∧ (bench .pageBatched).pins.scl.dir = .input := ⟨rfl, rfl⟩

theorem witness_ObserverReadsTheFrameSent :
    State.reset.pins.sda.dir = .input ∧ State.reset.pins.scl.dir = .input := ⟨rfl, rfl⟩

theorem witness_EventsDecodeBack :
    (∃ es, encodeEvents .holdLast 0 (.frame 0x7F#7 .data [0xFF#8]) = some es)
      ∧ ∃ es, encodeEvents .release 5 .stopCell = some es := ⟨⟨_, rfl⟩, ⟨_, rfl⟩⟩

theorem witness_BytesDecodeBack :
    (∃ bs, encodeBytes (benchCfg .pageBatched .release) (.setColHigh 15#4) = some bs)
      ∧ ∃ bs, encodeBytes (benchCfg .pageBatched .release) (.initPrecharge 0xFF#8) = some bs := ⟨⟨_, rfl⟩, ⟨_, rfl⟩⟩

theorem witness_FrameShapesDecodeBack :
    (∃ bs, encodeShape (benchCfg .pageBatched .release) 0x3C#7 (.framePosition 7#3 127#7) = some bs)
      ∧ ∃ bs, encodeShape (benchCfg .pageBatched .release) 0x3C#7 (.frameInit 0xF1#8 0x80#8) = some bs :=
  ⟨⟨_, rfl⟩, ⟨_, rfl⟩⟩

theorem witness_BeginOpensAFrame : (bench .pageBatched).busOpen = false ∧ openBench.busOpen = true := ⟨rfl, rfl⟩

theorem witness_WriteBytesSendsThePrefix :
    (openBench.busOpen = true ∧ 1 ≤ [0x00#8].length) ∧ (bench .pageBatched).busOpen = false
      ∧ (openBench.busOpen = true ∧ [0x00#8].length < 2) := ⟨⟨rfl, by decide⟩, rfl, ⟨rfl, by decide⟩⟩

theorem witness_EndClosesTheFrame : openBench.busOpen = true ∧ (bench .pageBatched).busOpen = false := ⟨rfl, rfl⟩

theorem witness_WritesConcatenate : openBench.busOpen = true := rfl

theorem witness_ZeroLengthWriteIsNoOperation :
    openBench.busOpen = true ∧ ((bench .pageBatched).busOpen = false ∧ (bench .pageBatched).Released) :=
  ⟨rfl, rfl, rfl, rfl⟩

theorem witness_TransactionIsOneFrame :
    ((bench .pageBatched).addr = some 0x3C#7 ∧ (bench .pageBatched).busOpen = false) ∧ State.reset.addr = none
      ∧ (openBench.addr ≠ none ∧ openBench.busOpen = true) := ⟨⟨rfl, rfl⟩, rfl, nofun, rfl⟩

theorem witness_CommandAndDataFrames :
    ((bench .pageBatched).addr = some 0x3C#7 ∧ (bench .pageBatched).busOpen = false ∧ 1 ≤ [0xFF#8].length)
      ∧ State.reset.addr = none ∧ (openBench.addr ≠ none ∧ openBench.busOpen = true) ∧ [0xFF#8].length < 2 :=
  ⟨⟨rfl, rfl, by decide⟩, rfl, ⟨nofun, rfl⟩, by decide⟩

/-- Both corners of the panel, `ADDR` unset, a frame open, and one step beyond each edge. -/
theorem witness_SetPositionSendsThePositionTriplet :
    ((0 ≤ 127 ∧ 0 ≤ 7) ∧ (127 ≤ 127 ∧ 7 ≤ 7) ∧ (bench .pageBatched).addr = some 0x3C#7
        ∧ (bench .pageBatched).busOpen = false)
      ∧ State.reset.addr = none ∧ (openBench.addr ≠ none ∧ openBench.busOpen = true)
      ∧ ((128 : Int) < 0 ∨ 127 < (128 : Int) ∨ (0 : Int) < 0 ∨ 7 < (0 : Int))
      ∧ ((0 : Int) < 0 ∨ 127 < (0 : Int) ∨ (-1 : Int) < 0 ∨ 7 < (-1 : Int)) :=
  ⟨⟨by decide, by decide, rfl, rfl⟩, rfl, ⟨nofun, rfl⟩, by decide, by decide⟩

theorem witness_InitializeEstablishesTheState :
    (127 ≤ 127 ∧ 255 ≤ 255 ∧ (bench .pageBatched).Idle ∧ (bench .pageBatched).cfg.variant.granularity = .page)
      ∧ ((bench .byteImmediate).Idle ∧ (bench .byteImmediate).cfg.variant.granularity = .byte)
      ∧ (State.reset.seq = .idle ∧ (128 > 127 ∨ 0 > 255 ∨ 0 > 255)) :=
  ⟨⟨by decide, by decide, ⟨rfl, rfl⟩, rfl⟩, ⟨⟨rfl, rfl⟩, rfl⟩, rfl, by decide⟩

theorem witness_PowerAndContrastSendOneFrame :
    (bench .pageBatched).addr = some 0x3C#7 ∧ (bench .pageBatched).Idle := ⟨rfl, rfl, rfl⟩

theorem witness_PublicCallsOutOfTurnAreRefused :
    (State.reset.addr = none ∧ State.reset.seq = .idle)
      ∧ (Instr.flush.isPublic = true ∧ ((bench .pageBatched).setSeq (.running .flush 0)).seq = .running .flush 0) :=
  ⟨⟨rfl, rfl⟩, rfl, rfl⟩

theorem witness_SetPixelPaintsOneBitAndMarksItsPage :
    127 < 128 ∧ 63 < 64 ∧ (bench .pageBatched).Initialised ∧ (bench .pageBatched).seq = .idle
      ∧ (bench .pageBatched).cfg.variant = .pageBatched := ⟨by decide, by decide, ⟨_, rfl⟩, rfl, rfl⟩

theorem witness_SetPixelByteWritesNoFlag :
    127 < 128 ∧ 63 < 64 ∧ (bench .byteBatched).Initialised ∧ (bench .byteBatched).seq = .idle
      ∧ (bench .byteBatched).cfg.variant = .byteBatched := ⟨by decide, by decide, ⟨_, rfl⟩, rfl, rfl⟩

/-- One step beyond each edge. -/
theorem witness_OutOfRangePixelChangesNothing :
    ((bench .pageBatched).Initialised ∧ (bench .pageBatched).seq = .idle)
      ∧ ((-1 : Int) < 0 ∨ 128 ≤ (-1 : Int) ∨ (0 : Int) < 0 ∨ 64 ≤ (0 : Int))
      ∧ ((128 : Int) < 0 ∨ 128 ≤ (128 : Int) ∨ (0 : Int) < 0 ∨ 64 ≤ (0 : Int))
      ∧ ((0 : Int) < 0 ∨ 128 ≤ (0 : Int) ∨ (64 : Int) < 0 ∨ 64 ≤ (64 : Int)) :=
  ⟨⟨⟨_, rfl⟩, rfl⟩, by decide, by decide, by decide⟩

theorem witness_PixelReadsBackWhatWasSet :
    (127 < 128 ∧ 63 < 64 ∧ 126 < 128 ∧ 0 < 64 ∧ (126, 0) ≠ (127, 63))
      ∧ (∃ t, exec ((bench .pageBatched).setPixelRow 127 63 true) (bench .pageBatched) = .next t)
      ∧ ∃ t, exec ((bench .byteImmediate).setPixelRow 127 63 true) (bench .byteImmediate) = .next t :=
  ⟨by decide, ⟨_, (exec_setPixel_closed rfl rfl (Or.inl rfl) (x := 127) (y := 63) (by decide) (by decide) true).1⟩,
    ⟨_, (exec_setPixel_closed (s := bench .byteImmediate) rfl rfl (Or.inl rfl) (x := 127) (y := 63) (by decide) (by decide)
      true).2⟩⟩

/-- A pixel of the bitmap, one beyond its edge, and one before `initialize`. -/
theorem witness_PixelObservesOneBit :
    (127 < 128 ∧ 63 < 64 ∧ (bench .pageBatched).Initialised)
      ∧ ((128 : Int) < 0 ∨ 128 ≤ (128 : Int) ∨ (0 : Int) < 0 ∨ 64 ≤ (0 : Int) ∨ (bench .pageBatched).addr = none)
      ∧ ((0 : Int) < 0 ∨ 128 ≤ (0 : Int) ∨ (0 : Int) < 0 ∨ 64 ≤ (0 : Int) ∨ State.reset.addr = none) :=
  ⟨⟨by decide, by decide, ⟨_, rfl⟩⟩, Or.inr (Or.inl (by decide)), Or.inr (Or.inr (Or.inr (Or.inr rfl)))⟩

theorem witness_ImmediateSetPixelSendsTheByte :
    127 < 128 ∧ 63 < 64 ∧ (bench .byteImmediate).addr = some 0x3C#7 ∧ (bench .byteImmediate).Idle
      ∧ (bench .byteImmediate).cfg.variant = .byteImmediate := ⟨by decide, by decide, rfl, ⟨rfl, rfl⟩, rfl⟩

/-- A dirty byte with the bus closed, with a frame open and with `ADDR` unset; a clean one; batched mode; outside. -/
theorem witness_SendingStepSendsADirtyByte :
    (127 < 128 ∧ 63 < 64 ∧ (bench .byteImmediate).cfg.variant = .byteImmediate
        ∧ (bench .byteImmediate).shadowEntry 1023 ≠ some ((bench .byteImmediate).fbByte 1023)
        ∧ (bench .byteImmediate).addr = some 0x3C#7 ∧ (bench .byteImmediate).busOpen = false)
      ∧ ((bench .byteImmediate).setAddr none).addr = none
      ∧ (((bench .byteImmediate).setBusOpen true).addr ≠ none ∧ ((bench .byteImmediate).setBusOpen true).busOpen = true)
      ∧ ((bench .byteImmediate).setShadow [(1023, 0x00#8)]).shadowEntry 1023
          = some (((bench .byteImmediate).setShadow [(1023, 0x00#8)]).fbByte 1023)
      ∧ (bench .byteBatched).cfg.variant.flushMode = .batched
      ∧ ((-1 : Int) < 0 ∨ 128 ≤ (-1 : Int) ∨ (0 : Int) < 0 ∨ 64 ≤ (0 : Int)) :=
  ⟨⟨by decide, by decide, rfl, nofun, rfl, rfl⟩, rfl, ⟨nofun, rfl⟩, rfl, rfl, by decide⟩

theorem witness_FillSetsEveryByteAndMarksAll :
    ((bench .pageBatched).Initialised ∧ (bench .pageBatched).seq = .idle
        ∧ (bench .pageBatched).cfg.variant.granularity = .page)
      ∧ ((bench .byteImmediate).Initialised ∧ (bench .byteImmediate).seq = .idle
        ∧ (bench .byteImmediate).cfg.variant.granularity = .byte) := ⟨⟨⟨_, rfl⟩, rfl, rfl⟩, ⟨_, rfl⟩, rfl, rfl⟩

/-- The whole image, and an unaligned offset in the last page. -/
theorem witness_LoadBlockCopiesAndMarks :
    ((bench .pageBatched).Initialised ∧ (bench .pageBatched).seq = .idle
        ∧ (bench .pageBatched).cfg.variant.granularity = .page)
      ∧ (128 * (0 / 128) + 1024 ≤ 1024 ∧ 1024 ≤ (List.replicate 1024 0xFF#8).length)
      ∧ (128 * (1023 / 128) + 1 ≤ 1024 ∧ 1 ≤ [0xFF#8].length) :=
  ⟨⟨⟨_, rfl⟩, rfl, rfl⟩, ⟨by decide, Nat.le_of_eq List.length_replicate.symm⟩, by decide⟩

theorem witness_LoadBlockFineVariantCopies :
    (bench .byteBatched).Initialised ∧ (bench .byteBatched).seq = .idle
      ∧ (bench .byteBatched).cfg.variant.granularity = .byte ∧ 128 * 7 + 1 ≤ 1024 ∧ 1 ≤ [0xFF#8].length :=
  ⟨⟨_, rfl⟩, rfl, rfl, by decide, by decide⟩

/-- One witness for each refusal. -/
theorem witness_LoadBlockRefusals :
    ((bench .pageBatched).Initialised ∧ (bench .pageBatched).seq = .idle ∧ (bench .byteBatched).Initialised
        ∧ (bench .byteBatched).seq = .idle)
      ∧ ((-1 : Int) < 0 ∨ (0 : Int) < 0)
      ∧ ((bench .byteBatched).cfg.variant.granularity = .byte ∧ 1 % 128 ≠ 0)
      ∧ ((bench .pageBatched).cfg.variant.granularity = .page ∧ 1024 < 128 * (1023 / 128) + 129)
      ∧ (128 * (896 / 128) + 128 ≤ 1024 ∧ ([] : List Byte).length < 128) :=
  ⟨⟨⟨_, rfl⟩, rfl, ⟨_, rfl⟩, rfl⟩, by decide, ⟨rfl, by decide⟩, ⟨rfl, by decide⟩, by decide⟩

theorem witness_FlushSendsDirtyPagesInOrder :
    dirtyBench.addr = some 0x3C#7 ∧ dirtyBench.Idle ∧ dirtyBench.cfg.variant.granularity = .page :=
  ⟨rfl, ⟨rfl, rfl⟩, rfl⟩

theorem witness_FlushByteSendsPagesWithADirtyByte :
    (bench .byteBatched).addr = some 0x3C#7 ∧ (bench .byteBatched).Idle
      ∧ (bench .byteBatched).cfg.variant.granularity = .byte := ⟨rfl, ⟨rfl, rfl⟩, rfl⟩

theorem witness_FlushTwiceSendsNothingMore :
    (∃ t, exec dirtyBench.flushRow dirtyBench = .next t)
      ∧ ∃ t, exec (bench .byteBatched).flushRow (bench .byteBatched) = .next t :=
  ⟨⟨_, (exec_flush_closed rfl rfl rfl).1⟩, ⟨_, (exec_flush_closed (s := bench .byteBatched) rfl rfl rfl).2⟩⟩

theorem witness_OnePixelCostsOnePage :
    127 < 128 ∧ 63 < 64 ∧ (bench .pageBatched).addr = some 0x3C#7 ∧ (bench .pageBatched).Settled
      ∧ (bench .pageBatched).cfg.variant = .pageBatched ∧ (bench .pageBatched).AllClean :=
  ⟨by decide, by decide, rfl, bench_settled _, rfl, by unfold State.AllClean; decide⟩

theorem witness_FlushCounts :
    (dirtyBench.Released ∧ (pages.filter dirtyBench.pageDirty).length = 8
        ∧ ∃ t, exec dirtyBench.flushRow dirtyBench = .next t)
      ∧ ((bench .pageBatched).Released ∧ (pages.filter (bench .pageBatched).pageDirty).length = 0
        ∧ ∃ t, exec (bench .pageBatched).flushRow (bench .pageBatched) = .next t) :=
  ⟨⟨⟨rfl, rfl⟩, by decide, ⟨_, (exec_flush_closed rfl rfl rfl).1⟩⟩,
    ⟨rfl, rfl⟩, by decide, ⟨_, (exec_flush_closed rfl rfl rfl).1⟩⟩

theorem witness_PublicOperationsStaySettled :
    Instr.flush.isPublic = true ∧ dirtyBench.Settled ∧ ∃ t, exec .flush dirtyBench = .next t :=
  ⟨rfl, dirtyBench_settled, ⟨_, (exec_flush_closed rfl rfl rfl).1⟩⟩

/-- Both granularities, frames going to the panel. -/
theorem witness_PublicOperationsKeepThePanelInStep :
    (Instr.flush.isPublic = true ∧ dirtyBench.Settled ∧ dirtyBench.Synced ∧ dirtyBench.addr = some dirtyBench.panel.address
        ∧ ∃ t, exec .flush dirtyBench = .next t)
      ∧ ((bench .byteBatched).Settled ∧ (bench .byteBatched).Synced
        ∧ ∃ t, exec .flush (bench .byteBatched) = .next t) :=
  ⟨⟨rfl, dirtyBench_settled, dirtyBench_synced, rfl, ⟨_, (exec_flush_closed rfl rfl rfl).1⟩⟩,
    bench_settled _, byteBench_synced, ⟨_, (exec_flush_closed (s := bench .byteBatched) rfl rfl rfl).1⟩⟩

/-- The fine variant with byte 0 sent and on the panel. -/
def sentBench : State :=
  { (bench .byteBatched).setShadow [(0, 0x00#8)] with
    panel := { (bench .byteBatched).panel with gram := [(0, 0x00#8)] } }

/-- Byte 0 is covered by no indicator. -/
theorem witness_InStepMeansSuperset :
    sentBench.Synced ∧ sentBench.addr = some sentBench.panel.address ∧ sentBench.covered 0 = false :=
  ⟨fun _ _ _ h => h, rfl, by decide⟩

/-- Both granularities, the last byte of the last page. -/
theorem witness_FlushMakesThePanelMatch :
    (dirtyBench.Settled ∧ dirtyBench.Synced ∧ dirtyBench.addr = some dirtyBench.panel.address
        ∧ ∃ t, exec dirtyBench.flushRow dirtyBench = .next t)
      ∧ ((bench .byteBatched).Settled ∧ (bench .byteBatched).Synced
        ∧ (bench .byteBatched).addr = some (bench .byteBatched).panel.address
        ∧ ∃ t, exec (bench .byteBatched).flushRow (bench .byteBatched) = .next t)
      ∧ 7 < 8 ∧ 127 < 128 :=
  ⟨⟨dirtyBench_settled, dirtyBench_synced, rfl, ⟨_, (exec_flush_closed rfl rfl rfl).1⟩⟩,
    ⟨bench_settled _, byteBench_synced, rfl, ⟨_, (exec_flush_closed (s := bench .byteBatched) rfl rfl rfl).2⟩⟩,
    by decide, by decide⟩

/-- Each granularity. -/
theorem witness_EndToEndScenario :
    State.reset.Settled ∧ State.reset.cfg.variant.granularity = .page ∧ (bench .byteBatched).Settled
      ∧ (bench .byteBatched).cfg.variant.granularity = .byte :=
  ⟨⟨⟨rfl, rfl⟩, ⟨rfl, rfl⟩, rfl⟩, rfl, bench_settled _, rfl⟩

/-- Frames to the panel, and to another address. -/
theorem witness_PanelObeysPowerAndContrast :
    ((bench .pageBatched).Settled ∧ (bench .pageBatched).addr = some (bench .pageBatched).panel.address)
      ∧ (((bench .pageBatched).setAddr (some 0x3D#7)).Settled
        ∧ ((bench .pageBatched).setAddr (some 0x3D#7)).addr = some 0x3D#7
        ∧ 0x3D#7 ≠ (bench .pageBatched).panel.address)
      ∧ (127 ≤ 127 ∧ 255 ≤ 255) ∧ 0x7A#8 ≠ BitVec.ofNat 8 (2 * (bench .pageBatched).panel.address.toNat) :=
  ⟨⟨bench_settled _, rfl⟩, ⟨⟨⟨rfl, rfl⟩, ⟨rfl, rfl⟩, rfl⟩, rfl, by decide⟩, by decide, by decide⟩

end Sys2Proof.Tests
end

namespace Sys2Proof.Machine

/-! ### Construction (R4, R25, R152) -/

/-- A pair of selectors is refused exactly when it is (`page`, `immediate`) (R152, U8). -/
theorem ofSelectors_eq_none_iff (g : Granularity) (m : FlushMode) :
    Variant.ofSelectors g m = none ↔ g = .page ∧ m = .immediate := by
  cases g <;> cases m <;> decide

/-- The configuration of an admitted pair is the one that has these selectors (R4). -/
theorem ofSelectors_eq_some_iff (g : Granularity) (m : FlushMode) (v : Variant) :
    Variant.ofSelectors g m = some v ↔ v.granularity = g ∧ v.flushMode = m := by
  cases g <;> cases m <;> cases v <;> decide

/-- Settles O1: the two laws of the selectors, and the constructed state's fields. -/
theorem constructionLeavesTheGivenValues : Obligations.ConstructionLeavesTheGivenValues := by
  unfold Obligations.ConstructionLeavesTheGivenValues
  refine ⟨⟨(ofSelectors_eq_none_iff _ _).2 ⟨rfl, rfl⟩, fun g m hadmitted => ?_,
    fun v => (ofSelectors_eq_some_iff _ _ v).2 ⟨rfl, rfl⟩⟩,
    rfl, rfl, ⟨rfl, rfl⟩, rfl, rfl, rfl, rfl, fun _ => rfl, rfl⟩
  obtain ⟨v, hv⟩ := Option.ne_none_iff_exists'.1 (mt (ofSelectors_eq_none_iff g m).1 hadmitted)
  exact ⟨v, hv, (ofSelectors_eq_some_iff g m v).1 hv⟩

/-! ### What every step keeps (R4, R15, R22, R180) -/

/-- No list of events changes the panel's own address (R180). -/
@[simp] theorem State.panelAfter_address (s : State) (es : List Event) :
    (s.panelAfter es).address = s.panel.address := by
  unfold State.panelAfter
  generalize s.rx.frames s.pins es = frames
  generalize s.panel = p
  induction frames generalizing p with
  | nil => rfl
  | cons f frames ih => exact (ih _).trans (Panel.receive_address s.cfg p f)

/-- `t` is a later state of the same driver: `TRACE` has at most grown, and what is fixed at construction is the same
(R4, R15, R22, R180). -/
structure State.Extends (s t : State) : Prop where
  trace : s.trace <+: t.trace
  cfg : t.cfg = s.cfg
  delay : t.delay = s.delay
  panelAddress : t.panel.address = s.panel.address

theorem State.Extends.trans {s t u : State} (h : s.Extends t) (h' : t.Extends u) : s.Extends u where
  trace := h.trace.trans h'.trace
  cfg := h'.cfg.trans h.cfg
  delay := h'.delay.trans h.delay
  panelAddress := h'.panelAddress.trans h.panelAddress

/-- An update that does not touch the four fields; the laws of the named updates find that by `simp`. -/
theorem State.extends_of_eq {s t : State} (htrace : t.trace = s.trace := by simp) (hcfg : t.cfg = s.cfg := by simp)
    (hdelay : t.delay = s.delay := by simp) (hpanel : t.panel = s.panel := by simp) : s.Extends t where
  trace := htrace ▸ List.prefix_rfl
  cfg := hcfg
  delay := hdelay
  panelAddress := congrArg Panel.address hpanel

theorem State.extends_refl (s : State) : s.Extends s := State.extends_of_eq

/-- Performing events appends them to `TRACE` (R90). -/
theorem State.extends_perform (s : State) (es : List Event) : s.Extends (s.perform es) where
  trace := List.prefix_append s.trace es
  cfg := rfl
  delay := rfl
  panelAddress := s.panelAfter_address es

theorem State.extends_pageSent (s : State) (p : Fin 8) : s.Extends (s.pageSent p) := by
  unfold State.pageSent
  split
  · exact (s.extends_perform (s.pageEvents p)).trans State.extends_of_eq
  · exact s.extends_refl

theorem State.extends_pagesSent (s : State) (ps : List (Fin 8)) : s.Extends (s.pagesSent ps) := by
  induction ps generalizing s with
  | nil => exact s.extends_refl
  | cons p ps ih => exact (s.extends_pageSent p).trans (ih _)

theorem State.extends_pixelSent (s : State) (x y : Nat) : s.Extends (s.pixelSent x y) := by
  unfold State.pixelSent
  split
  · exact (s.extends_perform (s.pixelEvents x y)).trans State.extends_of_eq
  · exact s.extends_refl

theorem State.extends_pixelSet (s : State) (x y : Nat) (c : Bool) : s.Extends (s.pixelSet x y c) := by
  have hpaint : s.Extends (s.paintPixel x y c) := State.extends_of_eq
  unfold State.pixelSet
  split
  · exact hpaint.trans State.extends_of_eq
  · exact (hpaint.trans ((s.paintPixel x y c).extends_pixelSent x y)).trans State.extends_of_eq

/-- An answer either performs events, sends pages or a byte, or touches none of the four fields. -/
theorem extends_of_answers {s t : State} {i : Instr} (h : Answers s i t) : s.Extends t := by
  cases h with
  | performs => exact s.extends_perform _
  | powers => exact s.extends_perform _
  | contrasts => exact s.extends_perform _
  | begins a => exact (s.extends_perform (expansion (.beginFrame a) s)).trans State.extends_of_eq
  | ends => exact (s.extends_perform (expansion .endFrame s)).trans State.extends_of_eq
  | initializes address pc rf =>
    have hset : s.Extends (s.setAddr (some (BitVec.ofNat 7 address))) := State.extends_of_eq
    exact (hset.trans (State.extends_perform _ (expansion (.initializePanel address pc rf) s))).trans State.extends_of_eq
  | paints _ x y c => exact s.extends_pixelSet x y c
  | sends x y => exact s.extends_pixelSent x y
  | flushes => exact s.extends_pagesSent pages
  | passes => exact s.extends_refl
  | reads => exact State.extends_of_eq
  | draws => exact State.extends_of_eq
  | misses => exact State.extends_of_eq
  | fills => exact State.extends_of_eq
  | loads => exact State.extends_of_eq

/-- Everything a step can do when it answers: nothing with no request; otherwise the operation that the first request asks
for answers, that request taken off the queue (R17, R183). -/
theorem step_cases {s t : State} (h : step s = .next t) :
    (s.requests = [] ∧ t = s) ∨
      ∃ r rest i, s.requests = r :: rest ∧ r.instr = some i ∧ exec i (s.setRequests rest) = .next t := by
  unfold step at h
  split at h
  · next hr =>
    injection h with h
    exact .inl ⟨hr, h.symm⟩
  · next r rest hr =>
    split at h
    · cases h
    · next i hi => exact .inr ⟨r, rest, i, hr, hi, h⟩

theorem step_extends {s t : State} (h : step s = .next t) : s.Extends t := by
  obtain ⟨-, rfl⟩ | ⟨_, rest, _, -, -, hexec⟩ := step_cases h
  · exact t.extends_refl
  · have hqueue : s.Extends (s.setRequests rest) := State.extends_of_eq
    exact hqueue.trans (extends_of_answers (exec_answers hexec))

/-- Settles O5, from what `exec` can answer (`exec_answers`), case by case. -/
theorem traceGrowsAndConfigurationStays : Obligations.TraceGrowsAndConfigurationStays := by
  unfold Obligations.TraceGrowsAndConfigurationStays
  intro s t h
  obtain ⟨⟨es, hes⟩, hcfg, hdelay, hpanel⟩ := step_extends h
  exact ⟨⟨es, hes.symm⟩, hcfg, hdelay, hpanel⟩

/-! ### The caller's door (R5, R177) -/

/-- A public operation is put last in the queue (R177). -/
theorem State.submit_of_isPublic {i : Instr} (h : i.isPublic = true) (s : State) :
    s.submit i = some (s.setRequests (s.requests ++ [.call i])) := if_pos h

/-- Any other row is refused at the door (R177). -/
theorem State.submit_of_not_isPublic {i : Instr} (h : ¬i.isPublic = true) (s : State) : s.submit i = none :=
  if_neg h

/-- What the door lets in was public. -/
theorem State.submit_eq_some {i : Instr} {s t : State} (h : s.submit i = some t) :
    i.isPublic = true ∧ t = s.setRequests (s.requests ++ [.call i]) := by
  by_cases hp : i.isPublic = true
  · rw [State.submit_of_isPublic hp] at h
    exact ⟨hp, (Option.some.inj h).symm⟩
  · rw [State.submit_of_not_isPublic hp] at h
    cases h

/-- The seven public operations by name, `setPixel` and `flush` by either of their rows (R5). -/
def IsOneOfTheSeven (i : Instr) : Prop :=
  (∃ a pc rf, i = .initializePanel a pc rf) ∨ (∃ on, i = .setPower on) ∨ (∃ v, i = .setContrast v)
    ∨ (∃ x y c, i = .setPixel x y c) ∨ (∃ x y c, i = .setPixelByte x y c)
    ∨ (∃ v, i = .fill v) ∨ (∃ b n o, i = .loadBlock b n o) ∨ i = .flush ∨ i = .flushByte

/-- The rows marked public are the seven operations and no other (R5, R177). -/
theorem isPublic_iff_isOneOfTheSeven (i : Instr) : i.isPublic = true ↔ IsOneOfTheSeven i := by
  constructor
  · intro h
    unfold IsOneOfTheSeven
    cases i
    case initializePanel | setPower | setContrast | setPixel | setPixelByte | fill | loadBlock | flush | flushByte => simp
    all_goals cases h
  · rintro (⟨_, _, _, rfl⟩ | ⟨_, rfl⟩ | ⟨_, rfl⟩ | ⟨_, _, _, rfl⟩ | ⟨_, _, _, rfl⟩ | ⟨_, rfl⟩ | ⟨_, _, _, rfl⟩ | rfl | rfl)
      <;> rfl

/-- A queue of public calls stays one when the door lets a call in (R177). -/
theorem State.submit_keeps_callerLegal {i : Instr} {s t : State} (hs : s.CallerLegal) (h : s.submit i = some t) :
    t.CallerLegal := by
  obtain ⟨hi, rfl⟩ := State.submit_eq_some h
  intro r hr
  rcases List.mem_append.1 hr with hr | hr
  · exact hs r hr
  · exact ⟨i, List.mem_singleton.1 hr, hi⟩

/-- Settles O11: the door asks whether the row is public, and the public rows are the seven operations. -/
theorem theDoorTakesPublicOperationsOnly : Obligations.TheDoorTakesPublicOperationsOnly := by
  unfold Obligations.TheDoorTakesPublicOperationsOnly
  intro seven s
  have hseven : ∀ i, i.isPublic = true ↔ seven i := isPublic_iff_isOneOfTheSeven
  simp only [← hseven]
  exact ⟨fun _ hi => s.submit_of_isPublic hi, fun _ hi => s.submit_of_not_isPublic hi,
    ⟨rfl, rfl, rfl, rfl, rfl, rfl, rfl, rfl, fun _ => rfl⟩,
    ⟨fun _ => rfl, rfl, fun _ => rfl, fun _ => rfl, fun _ _ => rfl, rfl, fun _ => rfl⟩,
    ⟨fun _ => rfl, fun _ _ => rfl, fun _ _ => rfl, fun _ _ => rfl⟩,
    ⟨fun _ _ => rfl, fun _ _ => rfl⟩,
    fun hlegal _ _ ht => State.submit_keeps_callerLegal hlegal ht⟩

end Sys2Proof.Machine

namespace Sys2Proof.Machine

/-! ### What an operation puts on the wire (R17, R22, R90) -/

/-- An update that leaves `TRACE`, the pins, the observer and the panel alone emits nothing more. -/
theorem State.Emits.congr {s t u : State} {es : List Event} (h : s.Emits t es)
    (htrace : u.trace = t.trace := by simp) (hpins : u.pins = t.pins := by simp)
    (hrx : u.rx = t.rx := by simp) (hpanel : u.panel = t.panel := by simp) : s.Emits u es := by
  simpa only [State.Emits, htrace, hpins, hrx, hpanel] using h

theorem State.emits_refl (s : State) : s.Emits s [] :=
  ⟨(List.append_nil _).symm, rfl, rfl, rfl⟩

/-- Frames to `x[ADDR]` depend on the configuration, `DELAY` and `ADDR` only (R56, R106). -/
theorem State.frameEvents_congr {s t : State} (hcfg : t.cfg = s.cfg) (hdelay : t.delay = s.delay) (haddr : t.addr = s.addr)
    (bs : List Byte) : t.frameEvents bs = s.frameEvents bs := by
  simp only [State.frameEvents, hcfg, hdelay, haddr]

@[simp] theorem State.pageSent_fbByte (s : State) (p : Fin 8) (i : Nat) : (s.pageSent p).fbByte i = s.fbByte i := by
  simp [State.fbByte]

/-- Cleaning a page leaves the dirty indicators of the others (R150, R151). -/
theorem State.cleanPage_pageDirty_of_ne (s : State) {p q : Fin 8} (h : q ≠ p) :
    (s.cleanPage p).pageDirty q = s.pageDirty q := by
  cases hg : s.cfg.variant.granularity with
  | page => simp [State.cleanPage_page hg, State.pageDirty, hg, h]
  | byte =>
    have hother : ∀ k < 128, ¬(128 * p.val ≤ 128 * q.val + k ∧ 128 * q.val + k < 128 * p.val + 128) := by
      have := Fin.val_ne_iff.2 h
      omega
    have hkeep : ∀ k ∈ List.range 128, (s.cleanPage p).shadowDirty (128 * q + k) = s.shadowDirty (128 * q + k) := by
      intro k hk
      simp [State.cleanPage_byte hg, State.shadowDirty, State.shadowEntry, lookup_knownWrite, pageStride,
        hother k (List.mem_range.1 hk)]
    simp only [State.pageDirty, State.cleanPage_cfg, hg, State.shadowPageDirty, pageStride]
    rw [Bool.eq_iff_iff]
    simp only [List.any_eq_true]
    exact exists_congr fun k => and_congr_right fun hk => by rw [hkeep k hk]

theorem State.pageSent_pageDirty_of_ne (s : State) {p q : Fin 8} (h : q ≠ p) :
    (s.pageSent p).pageDirty q = s.pageDirty q := by
  unfold State.pageSent
  split
  · rw [State.cleanPage_pageDirty_of_ne _ h, State.perform_pageDirty]
  · rfl

/-- What a flush sends for a page is not changed by sending another (R153). -/
theorem State.pageSent_pageEvents_of_ne (s : State) {p q : Fin 8} (h : q ≠ p) :
    (s.pageSent p).pageEvents q = s.pageEvents q := by
  have hframe := State.frameEvents_congr (s.pageSent_cfg p) (s.pageSent_delay p) (s.pageSent_addr p)
  simp only [State.pageEvents, State.pageSent_pageDirty_of_ne s h, State.positionEvents, State.dataEvents, hframe,
    State.pageRow, State.fbRead, State.pageSent_fbByte]

theorem State.emits_pageSent (s : State) (p : Fin 8) : s.Emits (s.pageSent p) (s.pageEvents p) := by
  by_cases hd : s.pageDirty p = true
  · simp only [State.pageSent, hd, if_true]
    exact (s.emits_perform (s.pageEvents p)).congr
  · rw [State.pageSent, State.pageEvents, if_neg hd, if_neg hd]
    exact s.emits_refl

/-- The page walk sends what each page's indicator asked for before it began (R150, R153). -/
theorem State.emits_pagesSent {ps : List (Fin 8)} (hps : ps.Nodup) (s : State) :
    s.Emits (s.pagesSent ps) (ps.flatMap s.pageEvents) := by
  induction ps generalizing s with
  | nil => exact s.emits_refl
  | cons p ps ih =>
    obtain ⟨hp, hps⟩ := List.nodup_cons.1 hps
    have hrest : ps.flatMap (s.pageSent p).pageEvents = ps.flatMap s.pageEvents :=
      List.flatMap_congr fun q hq => s.pageSent_pageEvents_of_ne fun e => hp (e ▸ hq)
    rw [List.flatMap_cons, ← hrest]
    exact State.emits_trans (s.emits_pageSent p) (s.pageSent_cfg p) (ih hps _)

theorem State.emits_pixelSent (s : State) (x y : Nat) : s.Emits (s.pixelSent x y) (s.pixelEvents x y) := by
  by_cases hd : s.shadowDirty (indexOf x y) = true
  · simp only [State.pixelSent, hd, if_true]
    exact (s.emits_perform (s.pixelEvents x y)).congr
  · rw [State.pixelSent, State.pixelEvents, if_neg hd, if_neg hd]
    exact s.emits_refl

theorem State.emits_paintPixel (s : State) (x y : Nat) (c : Bool) : s.Emits (s.paintPixel x y c) [] :=
  s.emits_refl.congr

/-- `setPixel` inside the bitmap sends what its expansion says, in every flush mode (R136, R137, R152). -/
theorem State.emits_pixelSet (s : State) {x y : Nat} (hx : x < 128) (hy : y < 64) (c : Bool) :
    s.Emits (s.pixelSet x y c) (s.setPixelEvents x y c) := by
  have hr : inBitmap (x : Int) (y : Int) = true := (inBitmap_iff _ _).2 (by omega)
  cases hf : s.cfg.variant.flushMode with
  | batched =>
    simp only [State.pixelSet, State.setPixelEvents, hf]
    exact (s.emits_paintPixel x y c).congr
  | immediate =>
    simp only [State.pixelSet, State.setPixelEvents, hf, hr, if_true, Int.toNat_natCast]
    exact (State.emits_trans (s.emits_paintPixel x y c) (s.paintPixel_cfg x y c) (State.emits_pixelSent _ x y)).congr

/-- A `setPixel` outside the bitmap sends nothing (R152, R167). -/
theorem State.setPixelEvents_outside {s : State} {x y : Int} (h : ¬(0 ≤ x ∧ x < 128 ∧ 0 ≤ y ∧ y < 64)) (c : Bool) :
    s.setPixelEvents x y c = [] := by
  have hr : inBitmap x y = false := by simpa using mt (inBitmap_iff x y).1 h
  cases hf : s.cfg.variant.flushMode <;> simp [State.setPixelEvents, hf, hr]

/-- Where the sending step has nothing to do its expansion is empty (R152, log entry 11). -/
theorem State.stepEvents_eq_nil {s : State} {x y : Int}
    (h : s.cfg.variant.flushMode = .batched ∨ ¬(0 ≤ x ∧ x < 128 ∧ 0 ≤ y ∧ y < 64)) : s.stepEvents x y = [] := by
  rcases h with hf | hr
  · simp [State.stepEvents, hf]
  · have hr : inBitmap x y = false := by simpa using mt (inBitmap_iff x y).1 hr
    cases hf : s.cfg.variant.flushMode <;> simp [State.stepEvents, hf, hr]

/-- Inside the bitmap, in immediate mode, it is the byte's (R152). -/
theorem State.stepEvents_inside {s : State} {x y : Nat} (hx : x < 128) (hy : y < 64)
    (hf : s.cfg.variant.flushMode = .immediate) : s.stepEvents x y = s.pixelEvents x y := by
  have hr : inBitmap (x : Int) (y : Int) = true := (inBitmap_iff _ _).2 (by omega)
  simp [State.stepEvents, hf, hr]

/-- Every answer leaves `TRACE`, the pins, the observer and the panel as the operation's expansion does (R17). -/
theorem emits_of_answers {s t : State} {i : Instr} (h : Answers s i t) : s.Emits t (expansion i s) := by
  cases h with
  | performs => exact s.emits_perform _
  | powers => exact s.emits_perform _
  | contrasts => exact s.emits_perform _
  | begins a => exact State.emits_setBusOpen (s.emits_perform _) true
  | ends => exact State.emits_setBusOpen (s.emits_perform _) false
  | initializes address pc rf =>
    have hframe : s.Emits ((s.setAddr (some (BitVec.ofNat 7 address))).perform _)
        (expansion (.initializePanel address pc rf) s) := State.emits_from_setAddr (State.emits_perform _ _)
    exact hframe.congr
  | paints _ x y c hi hx hy =>
    rcases hi with rfl | rfl <;> exact s.emits_pixelSet hx hy c
  | misses _ x y c hout hi =>
    have hnothing : s.Emits (s.setResult (.status .outOfRange)) (s.setPixelEvents x y c) :=
      State.setPixelEvents_outside hout c ▸ s.emits_refl.congr
    rcases hi with rfl | rfl <;> exact hnothing
  | sends x y hx hy hf =>
    rw [expansion, State.stepEvents_inside hx hy hf]
    exact s.emits_pixelSent x y
  | passes x y hnone =>
    rw [expansion, State.stepEvents_eq_nil hnone]
    exact s.emits_refl
  | flushes _ hi =>
    have hwalk : s.Emits (s.pagesSent pages) s.flushEvents := State.emits_pagesSent (by decide) s
    rcases hi with rfl | rfl <;> exact hwalk
  | reads => exact s.emits_refl.congr
  | draws => exact s.emits_refl.congr
  | fills => exact s.emits_refl.congr
  | loads => exact s.emits_refl.congr

/-! ### The replay of `TRACE` (R11, R12, R22, R73, R180) -/

/-- The replay goes on through whatever events an operation emits. -/
theorem State.Replayed.emits {s t : State} {es : List Event} (hs : s.Replayed) (h : s.Emits t es) (hcfg : t.cfg = s.cfg) :
    t.Replayed := by
  obtain ⟨hpins, hrx, hpanel⟩ := hs
  obtain ⟨htrace, hpins', hrx', hpanel'⟩ := h
  refine ⟨?_, ?_, ?_⟩
  · rw [htrace, Pins.applyAll_append, ← hpins, hpins']
  · rw [htrace, Rx.after_append, ← hpins, ← hrx, hrx']
  · rw [htrace, Rx.frames_append, List.foldl_append, hcfg, ← hpanel, ← hpins, ← hrx, hpanel', State.panelAfter]

/-- Settles O4: a step emits the expansion of the operation it runs, and emitting events keeps the replay. -/
theorem everyStepKeepsTheReplay : Obligations.EveryStepKeepsTheReplay := by
  unfold Obligations.EveryStepKeepsTheReplay
  intro s t hs h
  obtain ⟨-, rfl⟩ | ⟨_, rest, _, -, -, hexec⟩ := step_cases h
  · exact hs
  · have hqueue : (s.setRequests rest).Replayed := hs
    have hanswer := exec_answers hexec
    exact hqueue.emits (emits_of_answers hanswer) (extends_of_answers hanswer).cfg

/-! ### The big step and the small step (R17, R90) -/

/-- Performing a list of events is performing them one at a time (R17). -/
theorem State.foldl_tick (s : State) (es : List Event) : es.foldl State.tick s = s.perform es := by
  induction es generalizing s with
  | nil => exact s.perform_nil.symm
  | cons e es ih => rw [List.foldl_cons, ih, State.tick, ← State.perform_append, List.singleton_append]

/-- Settles O9: an answer emits its expansion, and so do the ticks. -/
theorem bigStepAgreesWithItsExpansion : Obligations.BigStepAgreesWithItsExpansion := by
  unfold Obligations.BigStepAgreesWithItsExpansion
  intro i s t h
  obtain ⟨htrace, hpins, hrx, hpanel⟩ := emits_of_answers (exec_answers h)
  rw [State.foldl_tick]
  exact ⟨htrace, hpins, hrx, hpanel, rfl⟩

end Sys2Proof.Machine

namespace Sys2Proof.Machine

/-! ### The observer's group and the panel's RAM under events (R73, R180) -/

theorem Rx.see_count_le {rx : Rx} (h : rx.count ≤ 8) (p p' : Pins) : (rx.see p p').count ≤ 8 := by
  unfold Rx.see Rx.sample
  split
  · exact Nat.zero_le 8
  · split
    · exact Nat.zero_le 8
    · split
      · split
        · next hlt => exact hlt
        · exact Nat.zero_le 8
      · exact h

/-- No list of events makes a group of more than eight bits (R73). -/
theorem Rx.after_count_le {rx : Rx} (h : rx.count ≤ 8) (p : Pins) (es : List Event) : (rx.after p es).count ≤ 8 := by
  induction es generalizing rx p with
  | nil => exact h
  | cons e es ih => exact ih (Rx.see_count_le h p (p.apply e)) _

@[simp] theorem Panel.command_gram (p : Panel) (c : Byte) : (p.command c).gram = p.gram := by
  unfold Panel.command
  repeat' split
  all_goals rfl

@[simp] theorem Panel.valued_gram (p : Panel) (c v : Byte) : (p.valued c v).gram = p.gram := by
  unfold Panel.valued
  split <;> rfl

/-- Commands leave the RAM alone (R180). -/
@[simp] theorem Panel.commands_gram (cfg : Config) (p : Panel) (bs : List Byte) : (p.commands cfg bs).gram = p.gram := by
  induction p, bs using Panel.commands.induct cfg with
  | case1 => rfl
  | case2 p c h => simp [Panel.commands, h]
  | case3 p c h v rest ih => simp [Panel.commands, h, ih]
  | case4 p c rest h ih =>
    unfold Panel.commands
    rw [if_neg h, ih, Panel.command_gram]

/-- A data byte goes to an index below 1024 (R180). -/
theorem Panel.dataByte_wfKnown {p : Panel} (h : Memory.wfKnown p.gram = true) (d : Byte) :
    Memory.wfKnown (p.dataByte d).gram = true := by
  have hpage := p.curPage.isLt
  have hcol := p.curCol.isLt
  have hwrite := Memory.wfKnown_knownWrite h (128 * p.curPage.toNat + p.curCol.toNat) [d]
    (by rw [List.length_singleton]; omega)
  unfold Panel.dataByte
  dsimp only
  split <;> exact hwrite

theorem Panel.dataBytes_wfKnown {p : Panel} (h : Memory.wfKnown p.gram = true) (ds : List Byte) :
    Memory.wfKnown (p.dataBytes ds).gram = true := by
  induction ds generalizing p with
  | nil => exact h
  | cons d ds ih => exact ih (Panel.dataByte_wfKnown h d)

/-- Every frame keeps the canonical form of the RAM: it is data, or leaves the RAM alone (R180). -/
theorem Panel.receive_wfKnown (cfg : Config) {p : Panel} (h : Memory.wfKnown p.gram = true) (frame : List Byte) :
    Memory.wfKnown (p.receive cfg frame).gram = true := by
  unfold Panel.receive
  repeat' split
  · simpa only [Panel.initialisation, Panel.command_gram] using h
  · simpa only [Panel.commands_gram] using h
  · exact Panel.dataBytes_wfKnown h _
  all_goals exact h

theorem State.panelAfter_wfKnown {s : State} (h : Memory.wfKnown s.panel.gram = true) (es : List Event) :
    Memory.wfKnown (s.panelAfter es).gram = true := by
  unfold State.panelAfter
  generalize s.rx.frames s.pins es = frames
  generalize s.panel = p at h
  induction frames generalizing p with
  | nil => exact h
  | cons f frames ih => exact ih _ (Panel.receive_wfKnown s.cfg h f)

/-! ### What an operation writes besides -/

/-- An operation run from an idle state ends in one (R17, log entry 13). -/
theorem seq_idle_of_answers {s t : State} {i : Instr} (h : Answers s i t) (hs : s.seq = .idle) : t.seq = .idle := by
  cases h with
  | paints => exact State.pixelSet_seq hs _ _ _
  | sends => exact State.pixelSent_seq hs _ _
  | flushes => exact State.pagesSent_seq pages hs
  | _ => simp [hs]

theorem indexOf_lt {x y : Nat} (hx : x < 128) (hy : y < 64) : indexOf x y < 1024 := by
  simp only [indexOf, pageStride, pageOf]
  omega

/-- Everything that can happen to `FB`: nothing, or one run of bytes written inside it (R18, R46). -/
theorem fb_of_answers {s t : State} {i : Instr} (h : Answers s i t) :
    t.fb = s.fb ∨ ∃ a vs, a + vs.length ≤ 1024 ∧ t.fb = fbWrite s.fb a vs := by
  have hall : ∀ v : Byte, 0 + (List.replicate fbSize v).length ≤ 1024 := fun v => by
    rw [List.length_replicate]
    decide
  cases h with
  | initializes => exact .inr ⟨0, _, hall 0#8, State.markAll_fb _⟩
  | fills v => exact .inr ⟨0, _, hall v, State.markAll_fb _⟩
  | paints _ x y c _ hx hy =>
    exact .inr ⟨indexOf x y, [paint (s.fbByte (indexOf x y)) y c], indexOf_lt hx hy, by simp [State.paintPixel]⟩
  | loads b n o eff _ _ _ hfit hlen =>
    unfold State.loadAt
    split
    · exact .inl rfl
    · refine .inr ⟨eff, b.take n, ?_, by simp⟩
      rw [List.length_take_of_le hlen]
      exact hfit
  | _ => exact .inl (by simp)

/-! ### `SHADOW` stays canonical (R20) -/

theorem State.markAll_wfKnown {s : State} (h : Memory.wfKnown s.shadow = true) :
    Memory.wfKnown s.markAll.shadow = true := by
  cases hg : s.cfg.variant.granularity with
  | page => rwa [State.markAll_page hg]
  | byte => rw [State.markAll_byte hg]; rfl

theorem State.cleanPage_wfKnown {s : State} (h : Memory.wfKnown s.shadow = true) (p : Fin 8) :
    Memory.wfKnown (s.cleanPage p).shadow = true := by
  cases hg : s.cfg.variant.granularity with
  | page => rwa [State.cleanPage_page hg]
  | byte =>
    rw [State.cleanPage_byte hg]
    refine Memory.wfKnown_knownWrite h _ _ ?_
    rw [State.pageRow_length, pageStride]
    omega

theorem State.pagesSent_wfKnown (ps : List (Fin 8)) {s : State} (h : Memory.wfKnown s.shadow = true) :
    Memory.wfKnown (s.pagesSent ps).shadow = true := by
  induction ps generalizing s with
  | nil => exact h
  | cons p ps ih =>
    refine ih (s := s.pageSent p) ?_
    unfold State.pageSent
    split
    · exact State.cleanPage_wfKnown (s := s.perform (s.pageEvents p)) h p
    · exact h

theorem State.pixelSent_wfKnown {s : State} (h : Memory.wfKnown s.shadow = true) {x y : Nat} (hx : x < 128) (hy : y < 64) :
    Memory.wfKnown (s.pixelSent x y).shadow = true := by
  unfold State.pixelSent
  split
  · exact Memory.wfKnown_knownWrite h _ _ (indexOf_lt hx hy)
  · exact h

theorem State.pixelSet_wfKnown {s : State} (h : Memory.wfKnown s.shadow = true) {x y : Nat} (hx : x < 128) (hy : y < 64)
    (c : Bool) : Memory.wfKnown (s.pixelSet x y c).shadow = true := by
  have hpaint : Memory.wfKnown (s.paintPixel x y c).shadow = true := by rwa [State.paintPixel_shadow]
  unfold State.pixelSet
  split
  · exact hpaint
  · exact State.pixelSent_wfKnown hpaint hx hy

theorem shadow_wfKnown_of_answers {s t : State} {i : Instr} (h : Answers s i t)
    (hs : Memory.wfKnown s.shadow = true) : Memory.wfKnown t.shadow = true := by
  cases h with
  | initializes | fills => exact State.markAll_wfKnown hs
  | paints _ x y c _ hx hy => exact State.pixelSet_wfKnown hs hx hy c
  | sends x y hx hy => exact State.pixelSent_wfKnown hs hx hy
  | flushes => exact State.pagesSent_wfKnown pages hs
  | loads => rwa [State.loadAt_shadow]
  | _ => exact hs

/-! ### The invariant (R20, R24 (ii), R73, R180, R191) -/

/-- An operation after which `ADDR` is unset found it unset and wrote neither `FB` nor `SHADOW` (R191). -/
theorem store_kept_of_answers_of_addr_none {s t : State} {i : Instr} (h : Answers s i t) (ht : t.addr = none) :
    s.addr = none ∧ t.fb = s.fb ∧ t.shadow = s.shadow := by
  have hset : (∃ a, s.addr = some a) → t.addr ≠ s.addr := by
    rintro ⟨a, ha⟩
    simp [ha, ht]
  cases h with
  | initializes => simp at ht
  | paints _ _ _ _ _ _ _ _ ha | fills _ _ ha | loads _ _ _ _ _ ha | flushes _ _ _ ha => exact absurd (by simp) (hset ha)
  | sends x y _ _ _ hdirty =>
    have hclean : ¬s.shadowDirty (indexOf x y) = true := fun hd => hset (hdirty hd).1 (by simp)
    rw [State.pixelSent, if_neg hclean] at ht ⊢
    exact ⟨ht, rfl, rfl⟩
  | _ => exact ⟨ht, rfl, rfl⟩

/-- Every operation that answers keeps the invariant. -/
theorem State.Inv.answers {s t : State} {i : Instr} (hs : s.Inv) (h : Answers s i t) : t.Inv := by
  obtain ⟨⟨hfb, hshadow, hgram⟩, hblank, hgroup, hseq⟩ := hs
  obtain ⟨-, -, hrx, hpanel⟩ := emits_of_answers h
  refine ⟨⟨?_, shadow_wfKnown_of_answers h hshadow, ?_⟩, ?_, ?_, seq_idle_of_answers h hseq⟩
  · obtain e | ⟨a, vs, hfit, e⟩ := fb_of_answers h
    · rwa [e]
    · rw [e]
      exact Memory.wf_fbWrite hfb a vs hfit
  · rw [hpanel]
    exact State.panelAfter_wfKnown hgram _
  · intro ht
    obtain ⟨haddr, e, e'⟩ := store_kept_of_answers_of_addr_none h ht
    rw [e, e']
    exact hblank haddr
  · rw [State.GroupBounded, hrx]
    exact Rx.after_count_le hgroup _ _

/-- Settles O3: a step runs one operation of the queue, and every answer keeps the invariant. -/
theorem everyStepKeepsTheInvariant : Obligations.EveryStepKeepsTheInvariant := by
  unfold Obligations.EveryStepKeepsTheInvariant
  intro s t hs h
  obtain ⟨-, rfl⟩ | ⟨_, rest, _, -, -, hexec⟩ := step_cases h
  · exact hs
  · have hqueue : (s.setRequests rest).Inv := hs
    exact hqueue.answers (exec_answers hexec)

/-- Settles O2: the constructed memories are empty, its `TRACE` is empty, and its `ADDR` is unset. -/
theorem invariantsHoldAtConstruction : Obligations.InvariantsHoldAtConstruction := by
  unfold Obligations.InvariantsHoldAtConstruction
  exact ⟨⟨State.reset_memories_wf, fun _ => ⟨rfl, rfl⟩, Nat.zero_le 8, rfl⟩, ⟨rfl, rfl, rfl⟩,
    ⟨⟨rfl, rfl⟩, ⟨rfl, rfl⟩, rfl⟩, nofun⟩

end Sys2Proof.Machine

namespace Sys2Proof.Machine

/-! ### Who writes `ADDR`, `FB` and `BUS_OPEN` (R14, R16, R18) -/

/-- Settles O6: of the answers only that of the row `initializePanel` sets `ADDR`. -/
theorem addrIsWrittenByInitializeOnly : Obligations.AddrIsWrittenByInitializeOnly := by
  unfold Obligations.AddrIsWrittenByInitializeOnly
  intro i s t h
  cases exec_answers h with
  | initializes address pc rf => exact .inr ⟨address, pc, rf, rfl, by simp⟩
  | _ => exact .inl (by simp)

/-- Settles O7: of the answers only those of the four operations write `FB`. -/
theorem framebufferIsWrittenByFourOperationsOnly : Obligations.FramebufferIsWrittenByFourOperationsOnly := by
  unfold Obligations.FramebufferIsWrittenByFourOperationsOnly
  intro i s t h
  cases exec_answers h with
  | initializes | fills | loads => simp
  | paints _ x y c hi => rcases hi with rfl | rfl <;> simp
  | _ => exact .inl (by simp)

/-- Settles O8: of the answers only those of `begin` and `end` set `BUS_OPEN`. -/
theorem busOpenIsWrittenByBeginAndEndOnly : Obligations.BusOpenIsWrittenByBeginAndEndOnly := by
  unfold Obligations.BusOpenIsWrittenByBeginAndEndOnly
  intro i s t h
  cases exec_answers h with
  | begins a hb => exact .inr (.inl ⟨a, rfl, hb, rfl⟩)
  | ends hb => exact .inr (.inr ⟨rfl, hb, rfl⟩)
  | _ => exact .inl (by simp)

/-! ### A settled block stays settled (R24, R45) -/

@[simp] theorem Rx.sample_active (rx : Rx) (b : Bool) : (rx.sample b).active = rx.active := by
  unfold Rx.sample
  split <;> rfl

/-- Inside a frame: the observer has one open, both lines are driven and the clock is low (R73, R95). -/
def InFrame (p : Pins) (rx : Rx) : Prop := p.Clocking ∧ rx.active = true

theorem InFrame.through_bitCell {p : Pins} {rx : Rx} (h : InFrame p rx) (d : Nat) (b : Bool) :
    InFrame (p.applyAll (bitCell d b)) (rx.after p (bitCell d b)) := by
  obtain ⟨hp, hrx⟩ := h
  rw [Pins.applyAll_bitCell hp, Rx.after_bitCell hrx hp]
  exact ⟨⟨rfl, rfl⟩, (rx.sample_active b).trans hrx⟩

theorem InFrame.through_bitCells {p : Pins} {rx : Rx} (h : InFrame p rx) (d : Nat) (bits : List Bool) :
    InFrame (p.applyAll (bits.flatMap (bitCell d))) (rx.after p (bits.flatMap (bitCell d))) := by
  induction bits generalizing p rx with
  | nil => exact h
  | cons b bits ih =>
    rw [List.flatMap_cons, Pins.applyAll_append, Rx.after_append]
    exact ih (h.through_bitCell d b)

/-- An ACK cell is one sampled bit, whatever has been collected (R52, R73). -/
theorem Rx.after_ackCell_active {rx : Rx} {p : Pins} (h : p.Clocking) (mode : AckMode) (d : Nat) :
    (rx.after p (ackCell mode d)).active = rx.active := by
  obtain ⟨⟨latch, dir⟩, scl⟩ := p
  obtain ⟨rfl, rfl⟩ := h
  obtain ⟨active, count, shift, bytes⟩ := rx
  cases active with
  | false => cases mode <;> cases latch <;> rfl
  | true => cases mode <;> cases latch <;> exact Rx.sample_active _ _

theorem InFrame.through_byteWave {p : Pins} {rx : Rx} (h : InFrame p rx) (mode : AckMode) (d : Nat) (v : Byte) :
    InFrame (p.applyAll (byteWave mode d v)) (rx.after p (byteWave mode d v)) := by
  obtain ⟨hp, hrx⟩ := h.through_bitCells d (bitsMsbFirst v)
  rw [byteWave, Pins.applyAll_append, Rx.after_append]
  exact ⟨Pins.applyAll_ackCell hp mode d, (Rx.after_ackCell_active hp mode d).trans hrx⟩

theorem InFrame.through_bytesWave {p : Pins} {rx : Rx} (h : InFrame p rx) (mode : AckMode) (d : Nat) (bs : List Byte) :
    InFrame (p.applyAll (bytesWave mode d bs)) (rx.after p (bytesWave mode d bs)) := by
  induction bs generalizing p rx with
  | nil => exact h
  | cons b bs ih =>
    rw [bytesWave_cons, Pins.applyAll_append, Rx.after_append]
    exact ih (h.through_byteWave mode d b)

/-- A frame begun with both lines released leaves the observer quiet, whatever it held before (R73, R107). -/
theorem Rx.after_frameWave (rx : Rx) {p : Pins} (hd : p.sda.dir = .input) (hc : p.scl.dir = .input) (mode : AckMode)
    (d : Nat) (a : BitVec 7) (bs : List Byte) : rx.after p (frameWave mode d a bs) = Rx.quiet := by
  have hstart : InFrame (p.applyAll (startWave d)) (rx.after p (startWave d)) := by
    rw [Pins.applyAll_startWave, Rx.after_startWave rx hd hc]
    exact ⟨⟨rfl, rfl⟩, rfl⟩
  obtain ⟨hpins, hrx⟩ := (hstart.through_byteWave mode d (addressByte a)).through_bytesWave mode d bs
  simp only [frameWave, Rx.after_append, Pins.applyAll_append]
  exact Rx.after_stopWave hrx hpins d

/-- Between two frames: both lines released and no frame open at the observer (R24 (iii)). -/
def Resting (p : Pins) (rx : Rx) : Prop := (p.sda.dir = .input ∧ p.scl.dir = .input) ∧ rx.active = false

/-- The events lead from rest to rest: a list of whole frames does. -/
def KeepsRest (es : List Event) : Prop := ∀ p rx, Resting p rx → Resting (p.applyAll es) (rx.after p es)

theorem keepsRest_nil : KeepsRest [] := fun _ _ h => h

theorem KeepsRest.append {es fs : List Event} (h : KeepsRest es) (h' : KeepsRest fs) : KeepsRest (es ++ fs) := by
  intro p rx hp
  rw [Pins.applyAll_append, Rx.after_append]
  exact h' _ _ (h p rx hp)

theorem keepsRest_flatMap {α : Type} {f : α → List Event} (h : ∀ x, KeepsRest (f x)) (xs : List α) :
    KeepsRest (xs.flatMap f) := by
  induction xs with
  | nil => exact keepsRest_nil
  | cons x xs ih => exact (h x).append ih

theorem keepsRest_frameWave (mode : AckMode) (d : Nat) (a : BitVec 7) (bs : List Byte) :
    KeepsRest (frameWave mode d a bs) := by
  rintro p rx ⟨⟨hd, hc⟩, -⟩
  rw [Pins.applyAll_frameWave, Rx.after_frameWave rx hd hc]
  exact ⟨⟨rfl, rfl⟩, rfl⟩

theorem State.keepsRest_frameEvents (s : State) (bs : List Byte) : KeepsRest (s.frameEvents bs) := by
  unfold State.frameEvents
  split
  · exact keepsRest_nil
  · exact keepsRest_frameWave _ _ _ bs

theorem State.keepsRest_pageEvents (s : State) (p : Fin 8) : KeepsRest (s.pageEvents p) := by
  unfold State.pageEvents
  split
  · exact (s.keepsRest_frameEvents _).append (s.keepsRest_frameEvents _)
  · exact keepsRest_nil

theorem State.keepsRest_pixelEvents (s : State) (x y : Nat) : KeepsRest (s.pixelEvents x y) := by
  unfold State.pixelEvents
  split
  · exact (s.keepsRest_frameEvents _).append (s.keepsRest_frameEvents _)
  · exact keepsRest_nil

theorem State.keepsRest_setPixelEvents (s : State) (x y : Int) (c : Bool) : KeepsRest (s.setPixelEvents x y c) := by
  unfold State.setPixelEvents
  split
  · exact keepsRest_nil
  · split
    · exact State.keepsRest_pixelEvents _ _ _
    · exact keepsRest_nil

/-- A public operation sends whole frames or nothing (R70, R74, R202). -/
theorem keepsRest_expansion {i : Instr} (h : i.isPublic = true) (s : State) : KeepsRest (expansion i s) := by
  cases i with
  | initializePanel => exact keepsRest_frameWave _ _ _ _
  | setPower | setContrast => exact s.keepsRest_frameEvents _
  | setPixel x y c | setPixelByte x y c => exact s.keepsRest_setPixelEvents x y c
  | fill | loadBlock => exact keepsRest_nil
  | flush | flushByte => exact keepsRest_flatMap s.keepsRest_pageEvents pages
  | _ => cases h

/-- Settles O55: a public operation sends whole frames, which lead from rest to rest; `BUS_OPEN` is not its to write. -/
theorem publicOperationsStaySettled : Obligations.PublicOperationsStaySettled := by
  unfold Obligations.PublicOperationsStaySettled
  rintro i s t hpublic ⟨⟨hbus, hseq⟩, hrest⟩ h
  have hanswer := exec_answers h
  obtain ⟨-, hpins, hrx, -⟩ := emits_of_answers hanswer
  have hbus' : t.busOpen = false := by
    obtain e | ⟨_, rfl, -⟩ | ⟨rfl, -⟩ := busOpenIsWrittenByBeginAndEndOnly i s t h
    · rw [e, hbus]
    · cases hpublic
    · cases hpublic
  refine ⟨⟨hbus', seq_idle_of_answers hanswer hseq⟩, ?_⟩
  rw [State.Released, hpins, hrx]
  exact keepsRest_expansion hpublic s s.pins s.rx hrest

end Sys2Proof.Machine

namespace Sys2Proof.Machine

/-! ### The step (R17, R41, R183) -/

/-- A request that asks for an operation: it is taken off the queue and run (R17, R41). -/
theorem step_of_instr {s : State} {r : Request} {i : Instr} {rest : List Request} (hs : s.requests = r :: rest)
    (hr : r.instr = some i) : step s = exec i (s.setRequests rest) := by
  simp only [step, hs, hr]

/-- A request that is no word is refused (log entry 8). -/
theorem step_of_undecodable {s : State} {r : Request} {rest : List Request} (hs : s.requests = r :: rest)
    (hr : r.instr = none) : step s = .refused .undecodable := by
  simp only [step, hs, hr]

/-- With no request nothing changes (R183). -/
theorem step_of_no_request {s : State} (hs : s.requests = []) : step s = .next s := by
  simp only [step, hs]

/-- Settles O10: the step on each kind of request. -/
theorem stepRunsTheNextRequest : Obligations.StepRunsTheNextRequest := by
  unfold Obligations.StepRunsTheNextRequest
  refine ⟨fun _ _ _ hs => step_of_instr hs rfl, fun _ bs i _ _ hs hd => step_of_instr hs ?_,
    fun _ bs _ _ hs hd => step_of_undecodable hs ?_, fun _ hs => step_of_no_request hs⟩
  · simp only [Request.instr, hd]
  · simp only [Request.instr, hd]

/-! ### Transport and device commands (R99, R106, R115, R116, R118, R123) -/

/-- Settles O28, by the order of `writeBytes`' two checks. -/
theorem writeBytesSendsThePrefix : Obligations.WriteBytesSendsThePrefix := by
  unfold Obligations.WriteBytesSendsThePrefix
  refine fun buffer length s => ⟨fun hopen hlen => ?_, fun hclosed => ?_, fun hopen hshort => ?_⟩
  · refine ⟨s.sendBytes (buffer.take length), ?_, s.emits_perform _, rfl, hopen, s.keepsStore_perform _⟩
    rw [exec_writeBytes, execWriteBytes, opWriteBytes, if_pos hopen, if_neg (Nat.not_lt.2 hlen)]
  · simp [execWriteBytes, opWriteBytes, hclosed]
  · simp [execWriteBytes, opWriteBytes, hopen, hshort]

/-- An operation performed as a transaction sends its frame to `x[ADDR]` (R106). -/
theorem sendsFrame_of_opTransaction {i : Instr} {bs : State → List Byte}
    (h : ∀ s, exec i s = opTransaction (bs s) s) : SendsFrame i bs := by
  intro s a ha hb
  have hframe : s.frameEvents (bs s) = frameWave s.cfg.ackMode s.delay a (bs s) := by
    simp only [State.frameEvents, ha]
  refine ⟨s.perform (frameWave s.cfg.ackMode s.delay a (bs s)), ?_, s.emits_perform _, rfl, hb, s.keepsStore_perform _, ?_⟩
  · rw [h, opTransaction_closed hb ha, hframe]
  · rw [State.perform_pins, Pins.applyAll_frameWave]

/-- An operation performed as a transaction is refused as one (R106, R123, R98). -/
theorem needsAddressAndClosedBus_of_opTransaction {i : Instr} {bs : State → List Byte}
    (h : ∀ s, exec i s = opTransaction (bs s) s) : NeedsAddressAndClosedBus i := by
  refine fun s => ⟨fun hunset => ?_, fun hset hopen => ?_⟩
  · simp only [h, opTransaction, hunset]
  · obtain ⟨a, ha⟩ := Option.ne_none_iff_exists'.1 hset
    simp only [h, opTransaction, ha, opFrame_open hopen]

/-- A data block whose buffer is long enough is a transaction (R118). -/
theorem exec_writeDataBlock_of_le {buffer : List Byte} {length : Nat} (h : length ≤ buffer.length) (s : State) :
    exec (.writeDataBlock buffer length) s = opTransaction (controlByte .data :: buffer.take length) s :=
  if_neg (Nat.not_lt.2 h)

/-- Settles O33: each operation is one transaction, a data block once its buffer is long enough. -/
theorem commandAndDataFrames : Obligations.CommandAndDataFrames := by
  unfold Obligations.CommandAndDataFrames
  have hframe : ∀ {i : Instr} {bs : List Byte}, (∀ s, exec i s = opTransaction bs s) →
      SendsFrame i (fun _ => bs) ∧ NeedsAddressAndClosedBus i := fun h =>
    ⟨sendsFrame_of_opTransaction h, needsAddressAndClosedBus_of_opTransaction h⟩
  exact ⟨fun _ => hframe fun _ => rfl, fun _ _ => hframe fun _ => rfl,
    fun _ _ hlen => hframe (exec_writeDataBlock_of_le hlen), fun _ _ _ hshort => if_pos hshort⟩

/-! ### One pixel (R31, R135 to R137) -/

/-- Painting sets the pixel's bit and keeps the seven others (R31, R32, R136). -/
theorem paint_getLsbD (old : Byte) (y : Nat) (color : Bool) {b : Nat} (hb : b < 8) :
    (paint old y color).getLsbD b = if b = bitOf y then color else old.getLsbD b := by
  have hmask : (maskOf y).getLsbD b = decide (b = bitOf y) := by
    simp only [maskOf, BitVec.getLsbD_shiftLeft, BitVec.getLsbD_one]
    grind
  have hnot : (~~~maskOf y).getLsbD b = !decide (b = bitOf y) := by
    rw [BitVec.getLsbD_not, hmask, decide_eq_true hb, Bool.true_and]
  cases color with
  | true =>
    rw [paint, if_pos rfl, BitVec.getLsbD_or, hmask]
    split <;> simp [*]
  | false =>
    rw [paint, if_neg nofun, BitVec.getLsbD_and, hnot]
    split <;> simp [*]

/-- What `FB` reads after painting: the one byte painted, every other as before (R136). -/
theorem State.paintPixel_fbByte (s : State) (x y : Nat) (c : Bool) (i : Nat) :
    (s.paintPixel x y c).fbByte i = if i = indexOf x y then paint (s.fbByte i) y c else s.fbByte i := by
  rw [State.paintPixel, State.markPages_fbByte, State.fbStore_fbByte, fbLookup_fbWrite]
  by_cases h : i = indexOf x y
  · simp [h]
  · have hout : ¬(indexOf x y ≤ i ∧ i < indexOf x y + 1) := by omega
    rw [List.length_singleton, if_neg hout, if_neg h, State.fbByte]

/-- With `GRANULARITY = byte` painting writes `FB` only (R137). -/
theorem State.paintPixel_byte {s : State} (h : s.cfg.variant.granularity = .byte) (x y : Nat) (c : Bool) :
    s.paintPixel x y c = s.fbStore (indexOf x y) [paint (s.fbByte (indexOf x y)) y c] :=
  State.markPages_byte (s := s.fbStore (indexOf x y) [paint (s.fbByte (indexOf x y)) y c]) h _ _

theorem State.pixelSet_batched {s : State} (h : s.cfg.variant.flushMode = .batched) (x y : Nat) (c : Bool) :
    s.pixelSet x y c = (s.paintPixel x y c).setResult (.status .ok) := by
  simp only [State.pixelSet, h]

/-- Painting sends nothing (R136, R137). -/
theorem State.keepsWire_paintPixel (s : State) (x y : Nat) (c : Bool) : s.KeepsWire (s.paintPixel x y c) := by
  simp [State.KeepsWire]

theorem State.keepsWire_setResult {s t : State} (h : s.KeepsWire t) (r : Result) : s.KeepsWire (t.setResult r) := h

/-- Settles O39: in batched mode `setPixel` paints and returns `OK`, and with `GRANULARITY = byte` painting marks nothing. -/
theorem setPixelByteWritesNoFlag : Obligations.SetPixelByteWritesNoFlag := by
  unfold Obligations.SetPixelByteWritesNoFlag
  rintro x y color s hx hy ⟨a, ha⟩ hs hv
  have hbatched : s.cfg.variant.flushMode = .batched := by rw [hv]; rfl
  have hbyte : s.cfg.variant.granularity = .byte := by rw [hv]; rfl
  have hfb : ∀ i, (s.pixelSet x y color).fbByte i
      = if i = 128 * (y / 8) + x then paint (s.fbByte i) y color else s.fbByte i :=
    State.pixelSet_batched hbatched x y color ▸ s.paintPixel_fbByte x y color
  refine ⟨s.pixelSet x y color, (exec_setPixel_closed hs ha (.inr hbatched) hx hy color).2, fun b hb => ?_, fun i hi => ?_, ?_⟩
  · rw [hfb, if_pos rfl, paint_getLsbD _ _ _ hb]
    rfl
  · rw [hfb, if_neg hi]
  · rw [State.pixelSet_batched hbatched]
    have hwire := State.keepsWire_setResult (s.keepsWire_paintPixel x y color) (.status .ok)
    rw [State.paintPixel_byte hbyte] at hwire ⊢
    exact ⟨by simp [State.shadowDirty], rfl, rfl, rfl, rfl, hwire⟩

/-- Settles O42: the two branches of `pixel`. -/
theorem pixelObservesOneBit : Obligations.PixelObservesOneBit := by
  unfold Obligations.PixelObservesOneBit
  refine fun s => ⟨fun x y hx hy => ?_, fun x y hout => ?_⟩
  · rintro ⟨a, ha⟩
    have hr : (inBitmap (x : Int) (y : Int) && s.addr.isSome) = true := by
      rw [Bool.and_eq_true, inBitmap_iff, ha]
      exact ⟨by omega, rfl⟩
    rw [exec_pixel, execPixel, if_pos hr]
    rfl
  · have hr : ¬(inBitmap x y && s.addr.isSome) = true := by
      rw [Bool.and_eq_true, inBitmap_iff, Option.isSome_iff_ne_none]
      rintro ⟨hin, hset⟩
      simp only [hset, or_false] at hout
      omega
    exact if_neg hr

/-! ### The refusals of `loadBlock` (R23, R35, R139) -/

/-- An initialised, idle `loadBlock` whose body is refused is refused with the same reason. -/
theorem exec_loadBlock_refused {s : State} (hinit : s.Initialised) (hs : s.seq = .idle) {buffer : List Byte}
    {count offset : Int} {r : Refusal} (h : ∀ q, loadBlockBody buffer count offset (s.setSeq q) = .refused r) :
    exec (.loadBlock buffer count offset) s = .refused r := by
  obtain ⟨a, ha⟩ := hinit
  rw [exec_loadBlock, execLoadBlock, callPublic_idle hs, requireInitialized_called ha, h, andThen_refused]

/-- Where `loadBlock` accepts an offset, the effective one is rounded down to the page (R35, R139). -/
theorem effectiveOffset_of_accepted {g : Granularity} {offset : Nat} (h : g = .page ∨ offset % 128 = 0) :
    effectiveOffset g offset = some (128 * (offset / 128)) := by
  have hround : offset - offset % 128 = 128 * (offset / 128) := by omega
  cases g with
  | page => simp [effectiveOffset, pageStride, hround]
  | byte =>
    have halign : offset % 128 = 0 := h.resolve_left nofun
    simp only [effectiveOffset, pageStride, halign, if_true, Option.some.injEq]
    omega

/-- The body past the check for negative operands, at an accepted offset (R139). -/
theorem loadBlockBody_of_accepted {s : State} {count offset : Nat}
    (h : s.cfg.variant.granularity = .page ∨ offset % 128 = 0) (buffer : List Byte) :
    loadBlockBody buffer count offset s
      = if 1024 < 128 * (offset / 128) + count then .refused .loadBlockOutOfRange
        else if buffer.length < count then .refused .bufferTooShort
        else .next (s.loadAt buffer count (128 * (offset / 128))) := by
  have hnonneg : ¬((count : Int) < 0 ∨ (offset : Int) < 0) := by omega
  simp only [loadBlockBody, hnonneg, if_false, Int.toNat_natCast, effectiveOffset_of_accepted h,
    fbSize, gt_iff_lt]

/-- Settles O49: the four checks in R139's order, each reached when those before it pass. -/
theorem loadBlockRefusals : Obligations.LoadBlockRefusals := by
  unfold Obligations.LoadBlockRefusals
  intro buffer s hinit hs
  refine ⟨fun count offset hneg => ?_, fun count offset hg hoff => ?_, fun count offset hacc hrange => ?_,
    fun count offset hacc hrange hshort => ?_⟩
  · exact exec_loadBlock_refused hinit hs fun _ => if_pos hneg
  · have hnonneg : ¬((count : Int) < 0 ∨ (offset : Int) < 0) := by omega
    refine exec_loadBlock_refused hinit hs fun _ => ?_
    simp [loadBlockBody, hnonneg, hg, effectiveOffset, pageStride, hoff]
  · refine exec_loadBlock_refused hinit hs fun q => ?_
    rw [loadBlockBody_of_accepted (s := s.setSeq q) hacc, if_pos hrange]
  · refine exec_loadBlock_refused hinit hs fun q => ?_
    rw [loadBlockBody_of_accepted (s := s.setSeq q) hacc, if_neg (Nat.not_lt.2 hrange), if_pos hshort]

end Sys2Proof.Machine

namespace Sys2Proof.Machine

/-! ### Bits, bytes and frames at the observer (R53, R56, R73) -/

theorem Rx.after_bitCells {p : Pins} {rx : Rx} (h : InFrame p rx) (d : Nat) (bits : List Bool) :
    rx.after p (bits.flatMap (bitCell d)) = bits.foldl Rx.sample rx := by
  induction bits generalizing p rx with
  | nil => rfl
  | cons b bits ih =>
    rw [List.flatMap_cons, Rx.after_append, ih (h.through_bitCell d b), Rx.after_bitCell h.2 h.1, List.foldl_cons]

theorem Rx.frames_bitCells {p : Pins} {rx : Rx} (h : InFrame p rx) (d : Nat) (bits : List Bool) :
    rx.frames p (bits.flatMap (bitCell d)) = [] := by
  induction bits generalizing p rx with
  | nil => rfl
  | cons b bits ih =>
    rw [List.flatMap_cons, Rx.frames_append, ih (h.through_bitCell d b), Rx.frames_bitCell rx h.1, List.append_nil]

/-- The eight bits of a byte, shifted in most significant first, push out what was there and make the byte (R33). -/
theorem foldl_shiftIn_bitsMsbFirst (old v : Byte) :
    (bitsMsbFirst v).foldl (fun (acc : Byte) b => (acc <<< 1) ||| (if b then 1#8 else 0#8)) old = v := by
  have hbit : ∀ (b : Bool) (i : Nat), (if b then 1#8 else 0#8).getLsbD i = (decide (i = 0) && b) := by
    intro b i
    cases b <;> simp [BitVec.getLsbD_one]
  refine BitVec.eq_of_getLsbD_eq fun i hi => ?_
  simp only [bitsMsbFirst, List.foldl_cons, List.foldl_nil, BitVec.getLsbD_or, BitVec.getLsbD_shiftLeft, hbit]
  interval_cases i <;> simp

/-- From the start of a group the eight bits of a byte are collected as that byte (R73). -/
theorem Rx.sample_bitsMsbFirst {rx : Rx} (h : rx.count = 0) (v : Byte) :
    (bitsMsbFirst v).foldl Rx.sample rx = { rx with count := 8, shift := v } := by
  obtain ⟨active, count, shift, bytes⟩ := rx
  cases h
  simpa [bitsMsbFirst, Rx.sample] using foldl_shiftIn_bitsMsbFirst shift v

theorem Rx.after_byteWave {p : Pins} {rx : Rx} (h : InFrame p rx) (hc : rx.count = 0) (mode : AckMode) (d : Nat)
    (v : Byte) : rx.after p (byteWave mode d v) = { rx with shift := v, bytes := rx.bytes ++ [v] } := by
  have hbits := h.through_bitCells d (bitsMsbFirst v)
  rw [Rx.after_bitCells h, Rx.sample_bitsMsbFirst hc] at hbits
  rw [byteWave, Rx.after_append, Rx.after_bitCells h, Rx.sample_bitsMsbFirst hc,
    Rx.after_ackCell hbits.2 rfl hbits.1, hc]

theorem Rx.frames_byteWave {p : Pins} {rx : Rx} (h : InFrame p rx) (mode : AckMode) (d : Nat) (v : Byte) :
    rx.frames p (byteWave mode d v) = [] := by
  rw [byteWave, Rx.frames_append, Rx.frames_bitCells h, Rx.frames_ackCell _ (h.through_bitCells d _).1, List.append_nil]

/-- Bytes sent in a frame are collected in order, and complete no frame (R73). -/
theorem Rx.over_bytesWave {p : Pins} {rx : Rx} (h : InFrame p rx) (hc : rx.count = 0) (mode : AckMode) (d : Nat)
    (bs : List Byte) :
    (rx.after p (bytesWave mode d bs)).count = 0 ∧ (rx.after p (bytesWave mode d bs)).bytes = rx.bytes ++ bs
      ∧ rx.frames p (bytesWave mode d bs) = [] := by
  induction bs generalizing p rx with
  | nil => simp [hc]
  | cons b bs ih =>
    have hb := h.through_byteWave mode d b
    rw [bytesWave_cons, Rx.after_append, Rx.frames_append, Rx.frames_byteWave h]
    rw [Rx.after_byteWave h hc] at hb ⊢
    obtain ⟨hcount, hbytes, hframes⟩ := ih hb hc
    exact ⟨hcount, by rw [hbytes, List.append_assoc, List.singleton_append], hframes⟩

/-- The observer reads from a frame begun with both lines released the bytes sent (R73, R107). -/
theorem Rx.frames_frameWave (rx : Rx) {p : Pins} (hd : p.sda.dir = .input) (hc : p.scl.dir = .input) (mode : AckMode)
    (d : Nat) (a : BitVec 7) (bs : List Byte) : rx.frames p (frameWave mode d a bs) = [addressByte a :: bs] := by
  have hsplit : frameWave mode d a bs = startWave d ++ bytesWave mode d (addressByte a :: bs) ++ stopWave d := by
    rw [frameWave, bytesWave_cons, List.append_assoc (startWave d)]
  have hstart : InFrame (p.applyAll (startWave d)) (rx.after p (startWave d)) := by
    rw [Pins.applyAll_startWave, Rx.after_startWave rx hd hc]
    exact ⟨⟨rfl, rfl⟩, rfl⟩
  have hempty := Rx.after_startWave rx hd hc d
  obtain ⟨hcount, hbytes, hframes⟩ := Rx.over_bytesWave hstart (by rw [hempty]) mode d (addressByte a :: bs)
  obtain ⟨hpins, hrx⟩ := hstart.through_bytesWave mode d (addressByte a :: bs)
  rw [hsplit, Rx.frames_append, Rx.frames_append, Rx.frames_startWave rx hd hc, hframes, Rx.after_append,
    Pins.applyAll_append, Rx.frames_stopWave hrx hcount hpins, hbytes, hempty]
  rfl

/-! ### What a frame to the panel makes of it (R180) -/

/-- A data frame at the panel's own address is its bytes in order. -/
theorem Panel.receive_data (cfg : Config) (p : Panel) (ds : List Byte) :
    p.receive cfg (addressByte p.address :: controlByte .data :: ds) = p.dataBytes ds := by
  have hcontrol : controlByte .data ≠ controlByte .command := by decide
  simp only [Panel.receive, if_true, hcontrol, if_false]

/-- A command frame, the initialisation one too, leaves the RAM alone. -/
theorem Panel.receive_command_gram (cfg : Config) (p : Panel) (cs : List Byte) :
    (p.receive cfg (addressByte p.address :: controlByte .command :: cs)).gram = p.gram := by
  simp only [Panel.receive, if_true]
  split
  · simp only [Panel.initialisation, Panel.command_gram]
  · exact p.commands_gram cfg cs

/-- A payload of fewer bytes than the eleven items have at least is no initialisation (R67, R68). -/
theorem readInitBody_of_short (cfg : Config) {bs : List Byte} (h : bs.length < 16) : readInitBody cfg bs = none := by
  refine if_neg fun e => ?_
  have hlen := congrArg List.length e
  simp [initBody, itemMuxRatio, itemDisplayOffset, itemClockDivide, itemChargePump, itemAddressingMode, itemPrecharge,
    itemVcomhDeselect] at hlen
  omega

/-- A short command frame at the panel's own address is its commands (R180). -/
theorem Panel.receive_commands (cfg : Config) (p : Panel) {cs : List Byte} (h : cs.length < 16) :
    p.receive cfg (addressByte p.address :: controlByte .command :: cs) = p.commands cfg cs := by
  simp only [Panel.receive, if_true, readInitBody_of_short cfg h, Option.isSome_none, Bool.false_eq_true, if_false]

/-- A one-byte command at the head of a command stream (R71, R180). -/
theorem Panel.commands_oneByte (cfg : Config) (p : Panel) {c : Byte} (h : isOneByteCommand c = true ∧ c ≠ contrastOpcode)
    (rest : List Byte) : p.commands cfg (c :: rest) = (p.command c).commands cfg rest := by
  have hvalue : ¬takesValue cfg c = true := by simp [takesValue, h]
  rw [Panel.commands.eq_def]
  exact if_neg hvalue

/-- The three bytes of a position are one-byte commands (R62 to R65). -/
theorem isOneByteCommand_pageByte {page : Nat} (h : page < 8) :
    isOneByteCommand (pageByte page) = true ∧ pageByte page ≠ contrastOpcode := by
  revert page
  decide

theorem isOneByteCommand_colLowByte {column : Nat} (h : column < 128) :
    isOneByteCommand (colLowByte column) = true ∧ colLowByte column ≠ contrastOpcode := by
  revert column
  decide

theorem isOneByteCommand_colHighByte {column : Nat} (h : column < 128) :
    isOneByteCommand (colHighByte column) = true ∧ colHighByte column ≠ contrastOpcode := by
  revert column
  decide

/-- The page command sets the cursor's page (R62, R180). -/
theorem Panel.command_pageByte (p : Panel) {page : Nat} (h : page < 8) :
    p.command (pageByte page) = { p with curPage := BitVec.ofNat 3 page } := by
  have hbyte : pageByte page ≠ displayOffByte ∧ pageByte page ≠ displayOnByte ∧ isPageByte (pageByte page) = true
      ∧ (pageByte page).setWidth 3 = BitVec.ofNat 3 page := by
    revert page
    decide
  simp [Panel.command, hbyte]

/-- The low column command sets the cursor's low nibble (R63, R180). -/
theorem Panel.command_colLowByte (p : Panel) {column : Nat} (h : column < 128) :
    p.command (colLowByte column)
      = { p with curCol := (p.curCol &&& 0x70#7) ||| (BitVec.ofNat 7 column &&& 0x0F#7) } := by
  have hbyte : colLowByte column ≠ displayOffByte ∧ colLowByte column ≠ displayOnByte
      ∧ isPageByte (colLowByte column) = false ∧ isColLowByte (colLowByte column) = true
      ∧ ((colLowByte column).setWidth 4).setWidth 7 = BitVec.ofNat 7 column &&& 0x0F#7 := by
    revert column
    decide
  simp [Panel.command, hbyte]

/-- The high column command sets the cursor's three high bits (R64, R180). -/
theorem Panel.command_colHighByte (p : Panel) {column : Nat} (h : column < 128) :
    p.command (colHighByte column)
      = { p with curCol := (BitVec.ofNat 7 column &&& 0x70#7) ||| (p.curCol &&& 0x0F#7) } := by
  have hbyte : colHighByte column ≠ displayOffByte ∧ colHighByte column ≠ displayOnByte
      ∧ isPageByte (colHighByte column) = false ∧ isColLowByte (colHighByte column) = false
      ∧ isColHighByte (colHighByte column) = true
      ∧ ((colHighByte column).setWidth 3).setWidth 7 <<< 4 = BitVec.ofNat 7 column &&& 0x70#7 := by
    revert column
    decide
  simp [Panel.command, hbyte]

/-- The two column commands set the whole column, whatever it was. -/
theorem nibbles_of_column (old column : BitVec 7) :
    (column &&& 0x70#7) ||| (((old &&& 0x70#7) ||| (column &&& 0x0F#7)) &&& 0x0F#7) = column := by
  refine BitVec.eq_of_getLsbD_eq fun i hi => ?_
  interval_cases i <;> simp

/-- The commands of a position set the cursor (R65, R180). -/
theorem Panel.commands_position (cfg : Config) (p : Panel) {column page : Nat} (hc : column < 128) (hp : page < 8) :
    p.commands cfg (positionBytes column page)
      = { p with curPage := BitVec.ofNat 3 page, curCol := BitVec.ofNat 7 column } := by
  rw [positionBytes, Panel.commands_oneByte _ _ (isOneByteCommand_pageByte hp),
    Panel.commands_oneByte _ _ (isOneByteCommand_colLowByte hc),
    Panel.commands_oneByte _ _ (isOneByteCommand_colHighByte hc), Panel.commands, Panel.command_pageByte _ hp,
    Panel.command_colLowByte _ hc, Panel.command_colHighByte _ hc, nibbles_of_column]

/-- One data byte is written at the cursor (R180). -/
@[simp] theorem Panel.dataByte_gram (p : Panel) (d : Byte) :
    (p.dataByte d).gram = knownWrite p.gram (128 * p.curPage.toNat + p.curCol.toNat) [d] := by
  unfold Panel.dataByte
  dsimp only
  split <;> rfl

/-- Before the last column the cursor steps to the next (R180). -/
theorem Panel.dataByte_cursor {p : Panel} (h : p.curCol.toNat < 127) (d : Byte) :
    (p.dataByte d).curPage = p.curPage ∧ (p.dataByte d).curCol.toNat = p.curCol.toNat + 1 := by
  have hcol : p.curCol ≠ 127#7 := by
    rintro e
    simp [e] at h
  simp only [Panel.dataByte, hcol, if_false, true_and]
  rw [BitVec.toNat_add, Nat.mod_eq_of_lt]
  · rfl
  · rw [BitVec.toNat_ofNat]
    omega

/-- A run of known bytes written one after the first is the run written whole. -/
theorem lookup_knownWrite_cons (m : Mem) (a : Nat) (d : Byte) (ds : List Byte) (i : Nat) :
    (knownWrite (knownWrite m a [d]) (a + 1) ds).lookup i = (knownWrite m a (d :: ds)).lookup i := by
  simp only [lookup_knownWrite, List.length_cons, List.length_nil]
  rcases Nat.lt_trichotomy i a with h | rfl | h
  · have h1 : ¬a + 1 ≤ i := by omega
    have h2 : ¬a ≤ i := by omega
    simp [h1, h2]
  · simp
  · obtain ⟨k, rfl⟩ : ∃ k, i = a + 1 + k := ⟨i - (a + 1), by omega⟩
    have h1 : a + 1 + k - a = k + 1 := by omega
    have h2 : a ≤ a + 1 + k := by omega
    have h3 : ¬a + 1 + k < a + 1 := by omega
    have h4 : a + 1 + k < a + (ds.length + 1) ↔ k < ds.length := by omega
    simp [h1, h2, h3, h4]

/-- Data bytes that fit in the page land one after another from the cursor on (R180). -/
theorem Panel.dataBytes_lookup (ds : List Byte) {p : Panel} (h : p.curCol.toNat + ds.length ≤ 128) (i : Nat) :
    (p.dataBytes ds).gram.lookup i
      = (knownWrite p.gram (128 * p.curPage.toNat + p.curCol.toNat) ds).lookup i := by
  induction ds generalizing p with
  | nil => simp [Panel.dataBytes, lookup_knownWrite]
  | cons d ds ih =>
    rw [← lookup_knownWrite_cons, ← Panel.dataByte_gram]
    change ((p.dataByte d).dataBytes ds).gram.lookup i = _
    cases ds with
    | nil => simp [Panel.dataBytes, lookup_knownWrite]
    | cons e ds =>
      simp only [List.length_cons] at h ih
      obtain ⟨hpage, hcol⟩ := Panel.dataByte_cursor (p := p) (by omega) d
      rw [ih (by omega), hpage, hcol, Nat.add_assoc]

/-! ### In step with the panel (R19, R20, R43) -/

theorem State.synced_page {s : State} (hg : s.cfg.variant.granularity = .page) :
    s.Synced ↔ (s.addr = some s.panel.address →
      ∀ (p : Fin 8) (c : Nat), c < 128 → s.dirty[p] = false → s.onPanel (128 * p.val + c)) := by
  simp only [State.Synced, hg]

theorem State.synced_byte {s : State} (hg : s.cfg.variant.granularity = .byte) :
    s.Synced ↔ (s.addr = some s.panel.address →
      ∀ i v, s.shadowEntry i = some v → s.panel.gram.lookup i = some v) := by
  simp only [State.Synced, hg]

/-- Settles O57: a byte without a set indicator is a clean page's, or one whose known shadow is the live byte. -/
theorem inStepMeansSuperset : Obligations.InStepMeansSuperset := by
  unfold Obligations.InStepMeansSuperset
  intro s hs haddr i hi hclean
  cases hg : s.cfg.variant.granularity with
  | page =>
    have hpage : i / 128 < 8 := Nat.div_lt_of_lt_mul hi
    have hflag : s.dirty[i / 128] = false := by
      simpa [State.covered, hg, pageStride, hpage] using hclean
    have hbyte := (State.synced_page hg).1 hs haddr ⟨i / 128, hpage⟩ (i % 128) (Nat.mod_lt i (by decide)) hflag
    rwa [Nat.div_add_mod] at hbyte
  | byte =>
    have hentry : s.shadowEntry i = some (s.fbByte i) := by
      simpa [State.covered, hg, State.shadowDirty] using hclean
    exact (State.synced_byte hg).1 hs haddr i _ hentry

/-- An update that leaves the indicators, `FB` and the panel alone. -/
theorem State.Synced.congr {s t : State} (hs : s.Synced) (hcfg : t.cfg = s.cfg := by simp)
    (haddr : t.addr = s.addr := by simp) (hfb : t.fb = s.fb := by simp) (hdirty : t.dirty = s.dirty := by simp)
    (hshadow : t.shadow = s.shadow := by simp) (hpanel : t.panel = s.panel := by simp) : t.Synced := by
  simpa only [State.Synced, State.onPanel, State.fbByte, State.shadowEntry, hcfg, haddr, hfb, hdirty, hshadow, hpanel]
    using hs

/-- With every indicator set nothing has to be on the panel (R119, R138, C7). -/
theorem State.synced_markAll (s : State) : s.markAll.Synced := by
  cases hg : s.cfg.variant.granularity with
  | page =>
    rw [State.synced_page (by rwa [State.markAll_cfg]), State.markAll_page hg]
    intro _ p c _ hclean
    have hmarked : 0 ≤ p.val ∧ p.val ≤ 7 := by omega
    rw [State.setDirty_dirty, markRange_get, decide_eq_true hmarked, Bool.or_true] at hclean
    cases hclean
  | byte =>
    rw [State.synced_byte (by rwa [State.markAll_cfg]), State.markAll_byte hg]
    intro _ i v hentry
    simp at hentry

/-- A mutation that marks the pages it writes: in the coarse variant the other pages read as before, in the fine one the
shadow and the panel are untouched (R43, R136, R137, R139). -/
theorem State.Synced.store {s : State} (hs : s.Synced) {a lo hi : Nat} {vs : List Byte}
    (hmarks : ∀ i, a ≤ i → i < a + vs.length → lo ≤ i / 128 ∧ i / 128 ≤ hi) :
    ((s.fbStore a vs).markPages lo hi).Synced := by
  cases hg : s.cfg.variant.granularity with
  | page =>
    rw [State.synced_page (by simpa using hg)]
    intro haddr p c hc hclean
    rw [State.markPages_page (s := s.fbStore a vs) hg, State.setDirty_dirty, markRange_get, Bool.or_eq_false_iff,
      decide_eq_false_iff_not] at hclean
    obtain ⟨hflag, hout⟩ := hclean
    have hkept : ¬(a ≤ 128 * p.val + c ∧ 128 * p.val + c < a + vs.length) := by
      rintro ⟨hle, hlt⟩
      have hpage : (128 * p.val + c) / 128 = p.val := by omega
      exact hout (hpage ▸ hmarks _ hle hlt)
    have hbefore := (State.synced_page hg).1 hs (by simpa using haddr) p c hc hflag
    rw [State.onPanel, State.markPages_panel, State.markPages_fbByte, State.fbStore_fbByte, fbLookup_fbWrite, if_neg hkept]
    exact hbefore
  | byte =>
    rw [State.markPages_byte (s := s.fbStore a vs) hg, State.synced_byte (s := s.fbStore a vs) hg]
    exact (State.synced_byte hg).1 hs

theorem State.Synced.paintPixel {s : State} (hs : s.Synced) {x : Nat} (hx : x < 128) (y : Nat) (c : Bool) :
    (s.paintPixel x y c).Synced := by
  refine hs.store fun i hle hlt => ?_
  simp only [indexOf, pageStride, List.length_singleton] at hle hlt
  omega

theorem State.Synced.loadAt {s : State} (hs : s.Synced) (b : List Byte) (n eff : Nat) :
    (s.loadAt b n eff).Synced := by
  unfold State.loadAt
  split
  · exact hs
  · refine hs.store fun i hle hlt => ?_
    rw [List.length_take] at hlt
    rw [pageStride]
    omega

/-! ### Sending keeps in step (R150 to R152, R158) -/

/-- A frame sent from released lines is what the panel receives (R73, R180). -/
theorem State.panelAfter_frameEvents {s : State} (hr : s.Released) {a : BitVec 7} (ha : s.addr = some a)
    (bs : List Byte) : s.panelAfter (s.frameEvents bs) = s.panel.receive s.cfg (addressByte a :: bs) := by
  obtain ⟨hd, hc⟩ := hr
  simp only [State.panelAfter, State.frameEvents, ha, Rx.frames_frameWave s.rx hd hc, List.foldl_cons, List.foldl_nil]

theorem State.released_perform_frameEvents {s : State} (hr : s.Released) (bs : List Byte) :
    (s.perform (s.frameEvents bs)).Released := by
  unfold State.frameEvents
  split
  · rwa [State.perform_nil]
  · exact s.released_perform_frameWave _ _ _ _

/-- A command frame to the panel leaves its RAM alone (R180). -/
theorem State.panelAfter_command_gram {s : State} (hr : s.Released) (ha : s.addr = some s.panel.address)
    (cs : List Byte) : (s.panelAfter (s.frameEvents (controlByte .command :: cs))).gram = s.panel.gram := by
  rw [State.panelAfter_frameEvents hr ha, Panel.receive_command_gram]

/-- A position frame and a data frame that fits in the page put the data in the panel's RAM from that position on (R180). -/
theorem State.panelAfter_block_lookup {s : State} (hr : s.Released) (ha : s.addr = some s.panel.address)
    {column page : Nat} (hc : column < 128) (hp : page < 8) {ds : List Byte} (hfit : column + ds.length ≤ 128) (i : Nat) :
    (s.panelAfter (s.positionEvents column page ++ s.dataEvents ds)).gram.lookup i
      = (knownWrite s.panel.gram (128 * page + column) ds).lookup i := by
  have hpage : (BitVec.ofNat 3 page).toNat = page := Nat.mod_eq_of_lt hp
  have hcol : (BitVec.ofNat 7 column).toNat = column := Nat.mod_eq_of_lt hc
  have hpanel : (s.perform (s.positionEvents column page)).panel
      = { s.panel with curPage := BitVec.ofNat 3 page, curCol := BitVec.ofNat 7 column } := by
    rw [State.perform_panel, State.positionEvents, State.panelAfter_frameEvents hr ha,
      Panel.receive_commands s.cfg s.panel (by simp [positionBytes]), Panel.commands_position s.cfg s.panel hc hp]
  have hreleased : (s.perform (s.positionEvents column page)).Released := State.released_perform_frameEvents hr _
  rw [State.panelAfter_append, ← State.perform_dataEvents s (s.positionEvents column page), State.dataEvents,
    State.panelAfter_frameEvents hreleased (a := s.panel.address) ha, hpanel,
    Panel.receive_data _ { s.panel with curPage := BitVec.ofNat 3 page, curCol := BitVec.ofNat 7 column },
    Panel.dataBytes_lookup ds (by rwa [hcol]), hpage, hcol]

/-- Known bytes sent and then written into the shadow (R151, R152). -/
theorem State.Synced.send_known {s : State} (hs : s.Synced) (hg : s.cfg.variant.granularity = .byte) (hr : s.Released)
    {column page : Nat} (hc : column < 128) (hp : page < 8) {ds : List Byte} (hfit : column + ds.length ≤ 128) :
    ((s.perform (s.positionEvents column page ++ s.dataEvents ds)).setShadow
      (knownWrite s.shadow (128 * page + column) ds)).Synced := by
  refine (State.synced_byte (by simpa using hg)).2 fun haddr i v hentry => ?_
  have ha : s.addr = some s.panel.address := by simpa using haddr
  have hbefore := (State.synced_byte hg).1 hs ha i v
  rw [State.setShadow_shadowEntry, lookup_knownWrite] at hentry
  rw [State.setShadow_panel, State.perform_panel, State.panelAfter_block_lookup hr ha hc hp hfit, lookup_knownWrite]
  split at hentry
  · next hin => rwa [if_pos hin]
  · next hout => rw [if_neg hout]; exact hbefore hentry

theorem State.Synced.pixelSent {s : State} (hs : s.Synced) (hg : s.cfg.variant.granularity = .byte) (hr : s.Released)
    {x y : Nat} (hx : x < 128) (hy : y < 64) : (s.pixelSent x y).Synced := by
  by_cases hd : s.shadowDirty (indexOf x y) = true
  · rw [State.pixelSent, State.pixelEvents, if_pos hd, if_pos hd]
    exact hs.send_known hg hr hx (Nat.div_lt_of_lt_mul hy) hx
  · rwa [State.pixelSent, if_neg hd]

/-- A whole page sent and its flag cleared (R150). -/
theorem State.Synced.send_page {s : State} (hs : s.Synced) (hg : s.cfg.variant.granularity = .page) (hr : s.Released)
    (p : Fin 8) : ((s.perform (s.positionEvents 0 p.val ++ s.dataEvents (s.pageRow p.val))).cleanPage p).Synced := by
  refine (State.synced_page (by simpa using hg)).2 fun haddr q c hc hclean => ?_
  have ha : s.addr = some s.panel.address := by simpa using haddr
  have hrow : 0 + (s.pageRow p.val).length ≤ 128 := by simp
  rw [State.onPanel, State.cleanPage_panel, State.perform_panel, State.panelAfter_block_lookup hr ha (by decide) p.isLt hrow,
    lookup_knownWrite, State.cleanPage_fbByte, State.perform_fbByte, State.pageRow_length, Nat.add_zero]
  by_cases hq : q = p
  · subst hq
    rw [if_pos (by omega), Nat.add_sub_cancel_left, State.pageRow_get s q.val hc]
  · have hout : ¬(128 * p.val ≤ 128 * q.val + c ∧ 128 * q.val + c < 128 * p.val + 128) := by
      have := Fin.val_ne_iff.2 hq
      omega
    rw [State.cleanPage_page (by simpa using hg)] at hclean
    rw [if_neg hout]
    exact (State.synced_page hg).1 hs ha q c hc (by simpa [hq] using hclean)

theorem State.Synced.pageSent {s : State} (hs : s.Synced) (hr : s.Released) (p : Fin 8) : (s.pageSent p).Synced := by
  by_cases hd : s.pageDirty p = true
  · rw [State.pageSent, State.pageEvents, if_pos hd, if_pos hd]
    cases hg : s.cfg.variant.granularity with
    | page => exact hs.send_page hg hr p
    | byte =>
      rw [State.cleanPage_byte (by simpa using hg)]
      exact hs.send_known hg hr (by decide) p.isLt (by simp)
  · rwa [State.pageSent, if_neg hd]

theorem State.released_pageSent {s : State} (hr : s.Released) (p : Fin 8) : (s.pageSent p).Released := by
  unfold State.pageSent State.pageEvents
  split
  · have hblock := State.released_perform_frameEvents (State.released_perform_frameEvents hr
      (controlByte .command :: positionBytes 0 p.val)) (controlByte .data :: s.pageRow p.val)
    rwa [State.Released, State.cleanPage_pins, State.positionEvents, State.dataEvents, State.perform_append]
  · exact hr

/-- The page walk keeps in step, page after page (R150, R151, R153). -/
theorem State.Synced.pagesSent {s : State} (hs : s.Synced) (hr : s.Released) (ps : List (Fin 8)) :
    (s.pagesSent ps).Synced := by
  induction ps generalizing s with
  | nil => exact hs
  | cons p ps ih => exact ih (hs.pageSent hr p) (State.released_pageSent hr p)

/-- Immediate mode is admitted with `GRANULARITY = byte` only (R152, U8). -/
theorem granularity_of_immediate {v : Variant} (h : v.flushMode = .immediate) : v.granularity = .byte := by
  cases v with
  | byteImmediate => rfl
  | pageBatched | byteBatched => cases h

theorem State.Synced.pixelSet {s : State} (hs : s.Synced) (hr : s.Released) {x y : Nat} (hx : x < 128) (hy : y < 64)
    (c : Bool) : (s.pixelSet x y c).Synced := by
  have hpaint := hs.paintPixel hx y c
  cases hf : s.cfg.variant.flushMode with
  | batched =>
    rw [State.pixelSet_batched hf]
    exact hpaint.congr
  | immediate =>
    have hbyte : (s.paintPixel x y c).cfg.variant.granularity = .byte := by
      rw [State.paintPixel_cfg, granularity_of_immediate hf]
    have hreleased : (s.paintPixel x y c).Released := by rwa [State.Released, State.paintPixel_pins]
    simp only [State.pixelSet, hf]
    exact (hpaint.pixelSent hbyte hreleased hx hy).congr

/-- A command frame keeps in step: it leaves the panel's RAM, and every indicator, alone (R120, R121). -/
theorem State.Synced.send_command {s : State} (hs : s.Synced) (hr : s.Released) (cs : List Byte) :
    (s.perform (s.frameEvents (controlByte .command :: cs))).Synced := by
  intro haddr
  have ha : s.addr = some s.panel.address := by simpa using haddr
  have hgram : (s.perform (s.frameEvents (controlByte .command :: cs))).panel.gram = s.panel.gram :=
    State.panelAfter_command_gram hr ha cs
  simpa only [State.onPanel, State.perform_fbByte, State.perform_shadowEntry, State.perform_cfg, State.perform_dirty,
    hgram] using hs ha

/-- Settles O56: what each public operation answers keeps in step. -/
theorem publicOperationsKeepThePanelInStep : Obligations.PublicOperationsKeepThePanelInStep := by
  unfold Obligations.PublicOperationsKeepThePanelInStep
  rintro i s t hpublic ⟨-, hr, -⟩ hs h
  cases exec_answers h with
  | initializes | fills => exact State.synced_markAll _
  | powers | contrasts => exact hs.send_command hr _
  | paints _ x y c _ hx hy => exact hs.pixelSet hr hx hy c
  | misses => exact hs.congr
  | loads b n o eff => exact hs.loadAt b n eff
  | flushes => exact hs.pagesSent hr pages
  | performs _ hinternal => rw [hpublic] at hinternal; cases hinternal
  | begins | ends | reads | draws | sends | passes => cases hpublic

end Sys2Proof.Machine

namespace Sys2Proof.Machine

/-! ### Calls out of turn (R41, R123, R191) -/

/-- A public operation called while one runs (R41). -/
theorem callPublic_running {s : State} {op : Instr} {n : Nat} (h : s.seq = .running op n) (op' : Instr)
    (body : State → Out) : callPublic op' body s = .refused .reentrantCall := by
  simp only [callPublic, h]

/-- A public operation whose body is refused is refused for the same reason. -/
theorem callPublic_refused {s : State} (hs : s.seq = .idle) {op : Instr} {body : State → Out} {r : Refusal}
    (h : ∀ q, body (s.setSeq q) = .refused r) : callPublic op body s = .refused r := by
  rw [callPublic_idle hs, h, andThen_refused]

/-- Every public row is performed by a public call (R17, R177). -/
theorem exec_eq_callPublic {i : Instr} (h : i.isPublic = true) : ∃ op body, ∀ s, exec i s = callPublic op body s := by
  cases i with
  | initializePanel | setPower | setContrast | setPixel | setPixelByte | fill | loadBlock | flush | flushByte =>
    exact ⟨_, _, fun _ => rfl⟩
  | _ => cases h

theorem opTransaction_unset {s : State} (h : s.addr = none) (bs : List Byte) :
    opTransaction bs s = .refused .addressUnset := by
  simp only [opTransaction, h]

theorem requireInitialized_unset {s : State} (h : s.addr = none) (body : State → Out) :
    requireInitialized body s = .refused .beforeInitialize := by
  simp only [requireInitialized, h]

/-- Settles O37: `ADDR` is unset under the call too, and every public row is a call. -/
theorem publicCallsOutOfTurnAreRefused : Obligations.PublicCallsOutOfTurnAreRefused := by
  unfold Obligations.PublicCallsOutOfTurnAreRefused
  refine ⟨fun s hunset hs => ?_, fun i s op n hpublic hrunning => ?_⟩
  · have hsend : ∀ op bs, callPublic op (opTransaction bs) s = .refused .addressUnset := fun _ bs =>
      callPublic_refused hs fun q => opTransaction_unset (s := s.setSeq q) hunset bs
    have hneed : ∀ op body, callPublic op (requireInitialized body) s = .refused .beforeInitialize := fun _ body =>
      callPublic_refused hs fun q => requireInitialized_unset (s := s.setSeq q) hunset body
    exact ⟨fun _ => hsend _ _, fun _ => hsend _ _, fun _ _ _ => hneed _ _, fun _ _ _ => hneed _ _, fun _ => hneed _ _,
      fun _ _ _ => hneed _ _, hneed _ _, hneed _ _⟩
  · obtain ⟨op', body, hcall⟩ := exec_eq_callPublic hpublic
    rw [hcall, callPublic_running hrunning]

/-! ### `setPixel` in the coarse variant, and beyond the edge (R136, R167) -/

/-- With `GRANULARITY = page` painting marks the pixel's page and no other (R136). -/
theorem State.paintPixel_dirty {s : State} (h : s.cfg.variant.granularity = .page) (x y : Nat) (c : Bool) (p : Fin 8) :
    (s.paintPixel x y c).dirty[p] = if p.val = y / 8 then true else s.dirty[p] := by
  have hone : (pageOf y ≤ p.val ∧ p.val ≤ pageOf y) ↔ p.val = y / 8 := by
    rw [pageOf]
    omega
  rw [State.paintPixel, State.markPages_page (s := s.fbStore _ _) h, State.setDirty_dirty, markRange_get,
    State.fbStore_dirty, decide_eq_decide.2 hone]
  split
  · next hp => rw [decide_eq_true hp, Bool.or_true]
  · next hp => rw [decide_eq_false hp, Bool.or_false]

/-- Settles O38: in batched mode `setPixel` paints and returns `OK`; with `GRANULARITY = page` painting marks the page. -/
theorem setPixelPaintsOneBitAndMarksItsPage : Obligations.SetPixelPaintsOneBitAndMarksItsPage := by
  unfold Obligations.SetPixelPaintsOneBitAndMarksItsPage
  rintro x y color s hx hy ⟨a, ha⟩ hs hv
  have hbatched : s.cfg.variant.flushMode = .batched := by rw [hv]; rfl
  have hpage : s.cfg.variant.granularity = .page := by rw [hv]; rfl
  have hexec := (exec_setPixel_closed hs ha (.inr hbatched) hx hy color).1
  rw [State.pixelSet_batched hbatched] at hexec
  have hindex : indexOf x y = 128 * (y / 8) + x := rfl
  refine ⟨_, hexec, fun b hb => ?_, fun i hi => ?_, State.paintPixel_dirty hpage x y color, rfl,
    State.paintPixel_shadow .., State.paintPixel_draws .., State.keepsWire_setResult (s.keepsWire_paintPixel x y color) _⟩
  · rw [State.setResult_fbByte, State.paintPixel_fbByte, hindex, if_pos rfl, paint_getLsbD _ _ _ hb, bitOf]
  · rw [State.setResult_fbByte, State.paintPixel_fbByte, hindex, if_neg hi]

/-- Settles O40: the range check comes before everything but the two checks of the call. -/
theorem outOfRangePixelChangesNothing : Obligations.OutOfRangePixelChangesNothing := by
  unfold Obligations.OutOfRangePixelChangesNothing
  rintro x y color s hout ⟨a, ha⟩ hs
  have hr : ¬inBitmap x y = true := by
    rw [inBitmap_iff]
    omega
  have hcall : ∀ op, callPublic op (requireInitialized (setPixelBody x y color)) s
      = .next (s.setResult (.status .outOfRange)) := fun op =>
    callPublic_closed hs (f := fun u => u.setResult (.status .outOfRange))
      (by rw [requireInitialized_called ha]; exact if_neg hr) rfl hs
  unfold State.setPixelRow
  split <;> exact hcall _

/-! ### `loadBlock` in the coarse variant (R139, R140) -/

@[simp] theorem State.loadAt_zero (s : State) (b : List Byte) (eff : Nat) : s.loadAt b 0 eff = s := rfl

theorem State.loadAt_of_ne_zero (s : State) {n : Nat} (h : n ≠ 0) (b : List Byte) (eff : Nat) :
    s.loadAt b n eff
      = (s.fbStore eff (b.take n)).markPages (eff / pageStride) ((eff + n - 1) / pageStride) := if_neg h

/-- What `FB` reads after loading: inside the run the buffer's byte, outside as before (R139). -/
theorem State.loadAt_fbByte (s : State) {b : List Byte} {n : Nat} (hn : n ≤ b.length) (eff i : Nat) :
    (s.loadAt b n eff).fbByte i = if eff ≤ i ∧ i < eff + n then b[i - eff]?.getD 0#8 else s.fbByte i := by
  by_cases h : n = 0
  · subst h
    rw [State.loadAt_zero, if_neg (by omega)]
  · rw [State.loadAt_of_ne_zero s h, State.markPages_fbByte, State.fbStore_fbByte, fbLookup_fbWrite,
      List.length_take_of_le hn]
    by_cases hin : eff ≤ i ∧ i < eff + n
    · rw [if_pos hin, if_pos hin, List.getElem?_take_of_lt (by omega)]
    · rw [if_neg hin, if_neg hin, State.fbByte]

/-- The pages of a run that is not empty are those from its first byte's to its last one's (R139). -/
theorem page_of_run_iff {n : Nat} (h : n ≠ 0) (eff p : Nat) :
    (eff / 128 ≤ p ∧ p ≤ (eff + n - 1) / 128) ↔ ∃ k, k < n ∧ (eff + k) / 128 = p := by
  constructor
  · rintro ⟨hlo, hhi⟩
    exact ⟨128 * p - eff, by omega, by omega⟩
  · rintro ⟨k, hk, rfl⟩
    omega

/-- With `GRANULARITY = page` loading marks the pages that receive a byte, none when there is no byte (R139). -/
theorem State.loadAt_dirty {s : State} (h : s.cfg.variant.granularity = .page) (b : List Byte) (n eff : Nat) (p : Fin 8) :
    (s.loadAt b n eff).dirty[p] = (s.dirty[p] || decide (∃ k, k < n ∧ (eff + k) / 128 = p.val)) := by
  by_cases h0 : n = 0
  · subst h0
    simp
  · rw [State.loadAt_of_ne_zero s h0, State.markPages_page (s := s.fbStore _ _) h, State.setDirty_dirty, markRange_get,
      State.fbStore_dirty]
    exact congrArg (s.dirty[p] || ·) (decide_eq_decide.2 (page_of_run_iff h0 eff p))

theorem State.keepsWire_loadAt (s : State) (b : List Byte) (n eff : Nat) : s.KeepsWire (s.loadAt b n eff) := by
  simp [State.KeepsWire]

/-- Settles O47: the accepted offset is rounded down to its page, and the marked range is the pages of the run. -/
theorem loadBlockCopiesAndMarks : Obligations.LoadBlockCopiesAndMarks := by
  unfold Obligations.LoadBlockCopiesAndMarks
  rintro buffer count offset s ⟨a, ha⟩ hs hg hfit hlen eff
  have hexec := exec_loadBlock_closed hs ha (effectiveOffset_of_accepted (.inl hg)) hfit hlen
  refine ⟨s.loadAt buffer count eff, hexec, fun k hk => ?_, fun i hi => ?_, State.loadAt_dirty hg buffer count eff,
    State.loadAt_shadow .., State.loadAt_result .., State.loadAt_draws .., s.keepsWire_loadAt buffer count eff⟩
  · have hin : eff ≤ eff + k ∧ eff + k < eff + count := by omega
    rw [State.loadAt_fbByte s hlen, if_pos hin, Nat.add_sub_cancel_left, List.getElem?_eq_getElem (by omega),
      Option.getD_some]
  · have hout : ¬(eff ≤ i ∧ i < eff + count) := by omega
    rw [State.loadAt_fbByte s hlen, if_neg hout]

end Sys2Proof.Machine

namespace Sys2Proof.Machine

/-! ### The address byte (R57) -/

/-- The address byte is twice the address: the write bit is 0 (R57, D2). -/
theorem addressByte_eq (a : BitVec 7) : addressByte a = BitVec.ofNat 8 (2 * a.toNat) := by
  refine BitVec.eq_of_toNat_eq ?_
  have ha : a.toNat % 256 = a.toNat := Nat.mod_eq_of_lt (by omega)
  simp [addressByte, writeBit, Nat.shiftLeft_eq, ha, Nat.mul_comm]

theorem readAddress_addressByte (a : BitVec 7) : readAddress (addressByte a) = .ok a := by
  have hwrite : (addressByte a).getLsbD 0 = false := by simp [addressByte, writeBit]
  have haddr : (addressByte a >>> 1).setWidth 7 = a := by
    refine BitVec.eq_of_getLsbD_eq fun i hi => ?_
    have hi' : 1 + i < 8 := by omega
    simp [addressByte, writeBit, hi, hi']
  simp only [readAddress, hwrite, haddr, Bool.false_eq_true, if_false]

theorem addressByte_inj {a b : BitVec 7} : addressByte a = addressByte b ↔ a = b := by
  refine ⟨fun h => ?_, congrArg _⟩
  have hread := readAddress_addressByte a
  rw [h, readAddress_addressByte] at hread
  injection hread with hab
  exact hab.symm

/-! ### The observer reads the frame sent (R73, R107) -/

/-- Settles O22, by the observer's laws over a whole frame. -/
theorem observerReadsTheFrameSent : Obligations.ObserverReadsTheFrameSent := by
  unfold Obligations.ObserverReadsTheFrameSent
  intro mode d a bs p rx hd hc
  exact ⟨by rw [Rx.frames_frameWave rx hd hc, addressByte_eq], Rx.after_frameWave rx hd hc mode d a bs⟩

/-! ### Reading cells, bytes and frames back from their events (R50 to R56) -/

theorem readBitCell_bitCell (d : Nat) (b : Bool) (rest : List Event) :
    readBitCell (bitCell d b ++ rest) = .ok (b, rest) := by
  cases b <;> rfl

theorem readAckCell_ackCell (mode : AckMode) (d : Nat) (rest : List Event) :
    readAckCell (ackCell mode d ++ rest) = .ok (mode, rest) := by
  cases mode <;> rfl

theorem readStart_startWave (d : Nat) (rest : List Event) : readStart (startWave d ++ rest) = .ok rest := rfl

theorem readStop_stopWave (d : Nat) (rest : List Event) : readStop (stopWave d ++ rest) = .ok rest := rfl

/-- A STOP is no START: it begins with a falling latch (R54, R55). -/
theorem readStart_stopWave (d : Nat) (rest : List Event) : readStart (stopWave d ++ rest) = .error .notThisCell := rfl

/-- A bit cell is no STOP: its clock falls again before the data latch moves (R51, R55). -/
theorem readStop_bitCell (d : Nat) (b : Bool) (rest : List Event) :
    readStop (bitCell d b ++ rest) = .error .notThisCell := by
  cases b <;> rfl

theorem readBits_bitCells (d : Nat) (bits : List Bool) (rest : List Event) :
    readBits bits.length (bits.flatMap (bitCell d) ++ rest) = .ok (bits, rest) := by
  induction bits with
  | nil => rfl
  | cons b bits ih =>
    simp only [List.length_cons, List.flatMap_cons, List.append_assoc, readBits, readBitCell_bitCell, ih]

theorem byteOfBits_bitsMsbFirst (v : Byte) : byteOfBits (bitsMsbFirst v) = v := foldl_shiftIn_bitsMsbFirst 0#8 v

theorem readByte_byteWave (mode : AckMode) (d : Nat) (v : Byte) (rest : List Event) :
    readByte (byteWave mode d v ++ rest) = .ok (v, rest) := by
  have hbits := readBits_bitCells d (bitsMsbFirst v) (ackCell mode d ++ rest)
  rw [show (bitsMsbFirst v).length = 8 from rfl] at hbits
  simp only [byteWave, List.append_assoc, readByte, hbits, readAckCell_ackCell, byteOfBits_bitsMsbFirst]

/-- The first cell of a byte tells it from a STOP (R53, R55). -/
theorem readStop_byteWave (mode : AckMode) (d : Nat) (v : Byte) (rest : List Event) :
    readStop (byteWave mode d v ++ rest) = .error .notThisCell := by
  rw [byteWave, bitsMsbFirst, List.flatMap_cons, List.append_assoc, List.append_assoc, readStop_bitCell]

/-- Bytes up to the STOP are read back, whatever follows it (R56). -/
theorem readBytesToStop_bytesWave (mode : AckMode) (d : Nat) (bs : List Byte) (rest : List Event) {fuel : Nat}
    (h : bs.length < fuel) : readBytesToStop fuel (bytesWave mode d bs ++ (stopWave d ++ rest)) = .ok (bs, rest) := by
  induction bs generalizing fuel with
  | nil =>
    obtain ⟨fuel, rfl⟩ := Nat.exists_eq_succ_of_ne_zero (Nat.ne_of_gt h)
    simp only [bytesWave_nil, List.nil_append, readBytesToStop, readStop_stopWave]
  | cons b bs ih =>
    obtain ⟨fuel, rfl⟩ := Nat.exists_eq_succ_of_ne_zero (Nat.ne_of_gt (Nat.zero_lt_of_lt h))
    simp only [bytesWave_cons, List.append_assoc, readBytesToStop, readStop_byteWave, readByte_byteWave,
      ih (Nat.lt_of_succ_lt_succ h)]

/-! ### How many events, and how many delays (R53, R56, R202) -/

theorem bitCell_length (d : Nat) (b : Bool) : (bitCell d b).length = 5 := rfl

theorem bitCells_length (d : Nat) (bits : List Bool) : (bits.flatMap (bitCell d)).length = 5 * bits.length := by
  induction bits with
  | nil => rfl
  | cons b bits ih =>
    rw [List.flatMap_cons, List.length_append, bitCell_length, ih, List.length_cons]
    omega

theorem byteWave_length (mode : AckMode) (d : Nat) (v : Byte) :
    (byteWave mode d v).length = 40 + (ackCell mode d).length := by
  rw [byteWave, List.length_append, bitCells_length]
  rfl

theorem bytesWave_length (mode : AckMode) (d : Nat) (bs : List Byte) :
    (bytesWave mode d bs).length = (40 + (ackCell mode d).length) * bs.length := by
  induction bs with
  | nil => rfl
  | cons b bs ih =>
    rw [bytesWave_cons, List.length_append, byteWave_length, ih, List.length_cons]
    ring

theorem bitCell_delays (d : Nat) (b : Bool) : ((bitCell d b).filter isDelay).length = 2 := by
  cases b <;> rfl

theorem ackCell_delays (mode : AckMode) (d : Nat) : ((ackCell mode d).filter isDelay).length = 2 := by
  cases mode <;> rfl

theorem byteWave_delays (mode : AckMode) (d : Nat) (v : Byte) : ((byteWave mode d v).filter isDelay).length = 18 := by
  simp [byteWave, bitsMsbFirst, bitCell_delays, ackCell_delays]

theorem bytesWave_delays (mode : AckMode) (d : Nat) (bs : List Byte) :
    ((bytesWave mode d bs).filter isDelay).length = 18 * bs.length := by
  induction bs with
  | nil => rfl
  | cons b bs ih =>
    rw [bytesWave_cons, List.filter_append, List.length_append, byteWave_delays, ih, List.length_cons]
    omega

/-- A frame is START, its bytes with the address byte first, STOP (R56). -/
theorem frameWave_eq (mode : AckMode) (d : Nat) (a : BitVec 7) (bs : List Byte) :
    frameWave mode d a bs = startWave d ++ (bytesWave mode d (addressByte a :: bs) ++ stopWave d) := by
  simp only [frameWave, bytesWave_cons, List.append_assoc]

/-- Settles O20: START has 8 events and 2 delays, STOP 7 and 2, and each byte as many as its cells. -/
theorem frameEventCounts : Obligations.FrameEventCounts := by
  unfold Obligations.FrameEventCounts
  intro mode d a bs
  have hstart : (startWave d).length = 8 ∧ ((startWave d).filter isDelay).length = 2 := ⟨rfl, rfl⟩
  have hstop : (stopWave d).length = 7 ∧ ((stopWave d).filter isDelay).length = 2 := ⟨rfl, rfl⟩
  simp only [frameWave_eq, List.filter_append, List.length_append, bytesWave_length, bytesWave_delays, hstart, hstop,
    List.length_cons]
  refine ⟨?_, by omega⟩
  cases mode <;> simp only [ackCell, clockPulse, List.length_cons, List.length_nil, List.length_append] <;> omega

/-! ### Cells, bytes and the FRAME row decode back (R50 to R58) -/

theorem readControl_controlByte (c : Control) : readControl (controlByte c) = .ok c := by
  cases c <;> rfl

theorem frameOfBytes_frame (a : BitVec 7) (ctl : Control) (payload : List Byte) :
    frameOfBytes (addressByte a :: controlByte ctl :: payload) = .ok (.frame a ctl payload) := by
  simp only [frameOfBytes, readAddress_addressByte, readControl_controlByte]

/-- There are at least as many events as bytes, so the reader's fuel suffices (R53). -/
theorem length_le_bytesWave_length (mode : AckMode) (d : Nat) (bs : List Byte) :
    bs.length ≤ (bytesWave mode d bs).length := by
  rw [bytesWave_length]
  exact Nat.le_mul_of_pos_left _ (by omega)

theorem decodeEvents_frameWave (mode : AckMode) (d : Nat) (a : BitVec 7) (ctl : Control) (payload : List Byte)
    (rest : List Event) :
    decodeEvents .frame (frameWave mode d a (controlByte ctl :: payload) ++ rest) = .ok (.frame a ctl payload, rest) := by
  have hfuel := length_le_bytesWave_length mode d (addressByte a :: controlByte ctl :: payload)
  simp only [frameWave_eq, List.append_assoc, decodeEvents, readStart_startWave]
  rw [readBytesToStop_bytesWave mode d _ rest (by rw [List.length_append]; omega)]
  simp only [frameOfBytes_frame]

/-- Settles O23, row by row, each by its reader's law. -/
theorem eventsDecodeBack : Obligations.EventsDecodeBack := by
  unfold Obligations.EventsDecodeBack
  intro i mode d es rest h
  cases i with
  | bit1 | bit0 => cases h; simp [decodeEvents, Instr.slot, readBitCell_bitCell]
  | ackRelease | ackDriveLow | ackHoldLast => cases h; simp [decodeEvents, Instr.slot, readAckCell_ackCell]
  | startCell => cases h; simp [decodeEvents, Instr.slot, readStart_startWave]
  | stopCell => cases h; simp [decodeEvents, Instr.slot, readStart_stopWave, readStop_stopWave]
  | byteCells v => cases h; simp [decodeEvents, Instr.slot, readByte_byteWave]
  | frame a ctl payload => cases h; exact decodeEvents_frameWave mode d a ctl payload rest
  | _ => cases h

end Sys2Proof.Machine

namespace Sys2Proof.Machine

/-! ### Commands and bytes decode back in their position (R57 to R68) -/

/-- The page command has its pattern and carries the page (R62). -/
theorem isPageByte_pageByte (p : BitVec 3) :
    isPageByte (pageByte p.toNat) = true ∧ (pageByte p.toNat).setWidth 3 = p := by
  revert p
  decide

/-- The low column command has its pattern and carries the nibble (R63). -/
theorem isColLowByte_lowNibbleByte (l : BitVec 4) :
    isColLowByte (lowNibbleByte l) = true ∧ (lowNibbleByte l).setWidth 4 = l := by
  revert l
  decide

/-- The high column command has its pattern and carries the nibble (R64). -/
theorem isColHighByte_highNibbleByte (h : BitVec 4) :
    isColHighByte (highNibbleByte h) = true ∧ (highNibbleByte h).setWidth 4 = h := by
  revert h
  decide

theorem readCommand_pageByte (p : BitVec 3) (rest : List Byte) :
    readCommand (pageByte p.toNat :: rest) = .ok (.setPage p, rest) := by
  have hother : pageByte p.toNat ≠ 0xAE#8 ∧ pageByte p.toNat ≠ 0xAF#8 ∧ pageByte p.toNat ≠ 0x81#8 := by
    revert p
    decide
  simp [readCommand, hother, isPageByte_pageByte p]

theorem readCommand_lowNibbleByte (l : BitVec 4) (rest : List Byte) :
    readCommand (lowNibbleByte l :: rest) = .ok (.setColLow l, rest) := by
  have hother : lowNibbleByte l ≠ 0xAE#8 ∧ lowNibbleByte l ≠ 0xAF#8 ∧ lowNibbleByte l ≠ 0x81#8
      ∧ isPageByte (lowNibbleByte l) = false := by
    revert l
    decide
  simp [readCommand, hother, isColLowByte_lowNibbleByte l]

theorem readCommand_highNibbleByte (h : BitVec 4) (rest : List Byte) :
    readCommand (highNibbleByte h :: rest) = .ok (.setColHigh h, rest) := by
  have hother : highNibbleByte h ≠ 0xAE#8 ∧ highNibbleByte h ≠ 0xAF#8 ∧ highNibbleByte h ≠ 0x81#8
      ∧ isPageByte (highNibbleByte h) = false ∧ isColLowByte (highNibbleByte h) = false := by
    revert h
    decide
  simp [readCommand, hother, isColHighByte_highNibbleByte h]

/-- The three bytes of a position are known by their patterns (R65). -/
theorem readPosition_triplet (p : BitVec 3) (l h : BitVec 4) (rest : List Byte) :
    readPosition (pageByte p.toNat :: lowNibbleByte l :: highNibbleByte h :: rest)
      = .ok (.positionTriplet p l h, rest) := by
  simp [readPosition, isPageByte_pageByte p, isColLowByte_lowNibbleByte l, isColHighByte_highNibbleByte h]

theorem readItem_append (item rest : List Byte) (i : Instr) : readItem item (item ++ rest) i = .ok (i, rest) := by
  simp [readItem]

/-- Settles O24, row by row, each by its reader's law. -/
theorem bytesDecodeBack : Obligations.BytesDecodeBack := by
  unfold Obligations.BytesDecodeBack
  intro i cfg bs rest h
  cases i with
  | addrByte a => cases h; simp [decodeBytes, Instr.slot, readAddress_addressByte]
  | ctrlCmd | ctrlData => cases h; simp [decodeBytes, Instr.slot, readControl_controlByte]
  | displayOff | displayOn | cmdContrast => cases h; rfl
  | setPage p => cases h; exact readCommand_pageByte p rest
  | setColLow l => cases h; exact readCommand_lowNibbleByte l rest
  | setColHigh h' => cases h; exact readCommand_highNibbleByte h' rest
  | positionTriplet p l h' => cases h; exact readPosition_triplet p l h' rest
  | dataByte d => cases h; rfl
  | initClockDivide | initPrecharge => cases h; exact if_pos rfl
  | initDisplayOff | initMuxRatio | initDisplayOffset | initChargePumpEnableSeq | initSegComRemap | initChargePump
  | initDisplayOn | initAddressingMode | initVcomhDeselect => cases h; exact readItem_append _ rest _
  | _ => cases h

/-! ### Frame shapes decode back (R67, R68, R74) -/

/-- The eleven items of the initialisation payload, byte by byte (R67, R68). -/
theorem initBody_eq (cfg : Config) (pc rf : Byte) :
    initBody cfg pc rf
      = [0xAE#8, cfg.opcMux, 0x3F#8, cfg.opcOffset, 0x00#8, cfg.opcClkDiv, rf] ++ cfg.seqCpEn ++ cfg.seqRemap
        ++ [cfg.opcChgPump, 0x14#8, 0xAF#8, cfg.opcAddrMode, cfg.modeHorizontal, cfg.opcPrechg, pc, cfg.opcVcomh,
          cfg.minBrightness] := by
  simp [initBody, displayOffByte, displayOnByte, itemMuxRatio, itemDisplayOffset, itemClockDivide, itemChargePump,
    itemAddressingMode, itemPrecharge, itemVcomhDeselect]

/-- An initialisation payload is recognised, and its two operands are where the reader looks for them (R67, R68). -/
theorem readInitBody_initBody (cfg : Config) (pc rf : Byte) : readInitBody cfg (initBody cfg pc rf) = some (pc, rf) := by
  have hrf : (initBody cfg pc rf).getD initRfAt 0#8 = rf := by
    rw [initBody_eq]
    rfl
  have hpc : (initBody cfg pc rf).getD (initPcAt cfg) 0#8 = pc := by
    have hat : ∀ front back : List Byte, (front ++ pc :: back).getD front.length 0#8 = pc := by simp
    rw [initBody_eq]
    convert hat ([0xAE#8, cfg.opcMux, 0x3F#8, cfg.opcOffset, 0x00#8, cfg.opcClkDiv, rf] ++ cfg.seqCpEn ++ cfg.seqRemap
      ++ [cfg.opcChgPump, 0x14#8, 0xAF#8, cfg.opcAddrMode, cfg.modeHorizontal, cfg.opcPrechg])
      [cfg.opcVcomh, cfg.minBrightness] using 2
    · simp
    · simp only [initPcAt, List.length_append, List.length_cons, List.length_nil]
      omega
  simp only [readInitBody, hrf, hpc, if_true]

/-- The bytes of a position give its page and its column back (R62 to R65). -/
theorem readCommandShape_positionBytes (cfg : Config) (p : BitVec 3) (col : BitVec 7) :
    readCommandShape cfg (positionBytes col.toNat p.toNat) = .ok (.framePosition p col) := by
  have hcol : isColLowByte (colLowByte col.toNat) = true ∧ isColHighByte (colHighByte col.toNat) = true
      ∧ (colHighByte col.toNat)[3] = false
      ∧ ((colHighByte col.toNat).setWidth 3 ++ (colLowByte col.toNat).setWidth 4 : BitVec 7) = col := by
    revert col
    decide
  simp [readCommandShape, positionBytes, readInitBody_of_short, isPageByte_pageByte p, hcol]

/-- A command frame decodes to the address it goes to and the shape of its payload. -/
theorem decodeShape_command {cfg : Config} {body : List Byte} {i : Instr} (h : readCommandShape cfg body = .ok i)
    (a : BitVec 7) : decodeShape cfg (addressByte a :: controlByte .command :: body) = .ok (a, i) := by
  simp only [decodeShape, readAddress_addressByte, readControl_controlByte, h]

/-- Settles O25, shape by shape: the payload's length tells the command shapes apart, but for the initialisation's, which is
read first and is longer than the others. -/
theorem frameShapesDecodeBack : Obligations.FrameShapesDecodeBack := by
  unfold Obligations.FrameShapesDecodeBack
  intro i cfg a bs h
  cases i with
  | frameCommand1 | frameCommand2 =>
    cases h
    exact decodeShape_command (by simp [readCommandShape, readInitBody_of_short]) a
  | framePosition p col => cases h; exact decodeShape_command (readCommandShape_positionBytes cfg p col) a
  | frameData ds =>
    cases h
    simp only [decodeShape, readAddress_addressByte, readControl_controlByte]
  | frameInit pc rf =>
    cases h
    exact decodeShape_command (by simp only [readCommandShape, readInitBody_initBody]) a
  | _ => cases h

/-- Settles O26, by reading the ten words. -/
theorem tableWordsDecode : Obligations.TableWordsDecode := by
  unfold Obligations.TableWordsDecode
  decide

end Sys2Proof.Machine

namespace Sys2Proof.Machine

/-! ### The rows that run by themselves (R51 to R55, R57 to R68, R95 to R97) -/

/-- A row that answers the state with these events performed performs them and nothing else. -/
theorem performsEvents_of_perform {i : Instr} {es : State → List Event}
    (h : ∀ s, exec i s = .next (s.perform (es s))) : PerformsEvents i es :=
  fun s => ⟨_, h s, s.emits_perform _, rfl, rfl, s.keepsStore_perform _⟩

/-- Settles O13: each row performs its cell. -/
theorem bitCellsStartAndStop : Obligations.BitCellsStartAndStop := by
  unfold Obligations.BitCellsStartAndStop
  exact ⟨performsEvents_of_perform fun _ => rfl, performsEvents_of_perform fun _ => rfl,
    performsEvents_of_perform fun _ => rfl, performsEvents_of_perform fun _ => rfl,
    fun _ => performsEvents_of_perform fun _ => rfl⟩

/-- Settles O14: each row performs its cell, and `ackSlot` that of the state's mode. -/
theorem ackCells : Obligations.AckCells := by
  unfold Obligations.AckCells
  refine ⟨performsEvents_of_perform fun _ => rfl, performsEvents_of_perform fun _ => rfl,
    performsEvents_of_perform fun _ => rfl, performsEvents_of_perform fun s => ?_⟩
  rw [exec_ackSlot, execAckSlot]
  cases s.cfg.ackMode <;> rfl

/-- A byte's cells written out (R33, R53). -/
theorem byteWave_eq (mode : AckMode) (d : Nat) (v : Byte) :
    byteWave mode d v
      = bitCell d (v.getLsbD 7) ++ bitCell d (v.getLsbD 6) ++ bitCell d (v.getLsbD 5) ++ bitCell d (v.getLsbD 4)
        ++ bitCell d (v.getLsbD 3) ++ bitCell d (v.getLsbD 2) ++ bitCell d (v.getLsbD 1) ++ bitCell d (v.getLsbD 0)
        ++ ackCell mode d := rfl

/-- Settles O15: the cells written out are the byte's waveform, whose counts are known. -/
theorem byteIsEightBitCellsAndAnAckCell : Obligations.ByteIsEightBitCellsAndAnAckCell := by
  unfold Obligations.ByteIsEightBitCellsAndAnAckCell
  intro v
  simp only [← byteWave_eq, byteWave_length, byteWave_delays]
  refine ⟨performsEvents_of_perform fun _ => rfl, performsEvents_of_perform fun s => ?_, fun s => ⟨?_, trivial⟩⟩
  · rw [exec_byteCells, execByteCells, State.sendBytes, State.bytesEvents, bytesWave_cons, bytesWave_nil, List.append_nil]
  · cases s.cfg.ackMode <;> rfl

/-- A row that answers the state with these bytes sent clocks them out and nothing else. -/
theorem clocksOut_of_sendBytes {i : Instr} {bs : State → List Byte} (h : ∀ s, exec i s = .next (s.sendBytes (bs s))) :
    ClocksOut i bs :=
  performsEvents_of_perform h

theorem pageByte_eq (p : BitVec 3) : pageByte p.toNat = BitVec.ofNat 8 (0xB0 + p.toNat) := by
  revert p
  decide

theorem lowNibbleByte_eq (l : BitVec 4) : lowNibbleByte l = BitVec.ofNat 8 l.toNat := by
  revert l
  decide

theorem highNibbleByte_eq (h : BitVec 4) : highNibbleByte h = BitVec.ofNat 8 (0x10 + h.toNat) := by
  revert h
  decide

theorem colLowByte_eq (col : BitVec 7) : colLowByte col.toNat = BitVec.ofNat 8 (col.toNat % 16) := by
  revert col
  decide

theorem colHighByte_eq (col : BitVec 7) : colHighByte col.toNat = BitVec.ofNat 8 (0x10 + col.toNat / 16) := by
  revert col
  decide

/-- Settles O16: each row sends its bytes, and the patterns of R57 and R62 to R65 are sums. -/
theorem wireRowsClockOutTheirBytes : Obligations.WireRowsClockOutTheirBytes := by
  unfold Obligations.WireRowsClockOutTheirBytes
  simp only [← addressByte_eq, ← pageByte_eq, ← lowNibbleByte_eq, ← highNibbleByte_eq]
  exact ⟨fun _ => clocksOut_of_sendBytes fun _ => rfl, clocksOut_of_sendBytes fun _ => rfl,
    clocksOut_of_sendBytes fun _ => rfl, clocksOut_of_sendBytes fun _ => rfl, clocksOut_of_sendBytes fun _ => rfl,
    fun _ => clocksOut_of_sendBytes fun _ => rfl, fun _ => clocksOut_of_sendBytes fun _ => rfl,
    fun _ => clocksOut_of_sendBytes fun _ => rfl, fun _ => clocksOut_of_sendBytes fun _ => rfl,
    fun _ _ _ => clocksOut_of_sendBytes fun _ => rfl, fun _ => clocksOut_of_sendBytes fun _ => rfl⟩

/-- Settles O17: each row sends its item's bytes. -/
theorem initialisationItemsClockOutTheirBytes : Obligations.InitialisationItemsClockOutTheirBytes := by
  unfold Obligations.InitialisationItemsClockOutTheirBytes
  exact ⟨clocksOut_of_sendBytes fun _ => rfl, clocksOut_of_sendBytes fun _ => rfl, clocksOut_of_sendBytes fun _ => rfl,
    fun _ => clocksOut_of_sendBytes fun _ => rfl, clocksOut_of_sendBytes fun _ => rfl,
    clocksOut_of_sendBytes fun _ => rfl, clocksOut_of_sendBytes fun _ => rfl, clocksOut_of_sendBytes fun _ => rfl,
    clocksOut_of_sendBytes fun _ => rfl, fun _ => clocksOut_of_sendBytes fun _ => rfl,
    clocksOut_of_sendBytes fun _ => rfl⟩

/-! ### The rows that send a frame (R56, R67, R68, R74) -/

/-- Settles O18: each shape is one transaction of its bytes. -/
theorem frameShapesSendTheirBytes : Obligations.FrameShapesSendTheirBytes := by
  unfold Obligations.FrameShapesSendTheirBytes
  refine ⟨fun _ => sendsFrame_of_opTransaction fun _ => rfl, fun _ _ => sendsFrame_of_opTransaction fun _ => rfl,
    fun p col => sendsFrame_of_opTransaction fun s => ?_, fun _ => sendsFrame_of_opTransaction fun _ => rfl,
    fun pc rf => sendsFrame_of_opTransaction fun s => ?_⟩
  · rw [exec_framePosition, execFramePosition, positionBytes, pageByte_eq, colLowByte_eq, colHighByte_eq]
    rfl
  · rw [exec_frameInit, execFrameInit, initBody_eq]
    rfl

/-- Settles O19: with no frame open the row is one frame, and with one open it is refused as `begin` is. -/
theorem frameRowSendsItsFrame : Obligations.FrameRowSendsItsFrame := by
  unfold Obligations.FrameRowSendsItsFrame
  intro a ctl payload s
  simp only [← addressByte_eq, List.append_assoc, ← frameWave_eq]
  exact ⟨fun hclosed => ⟨_, opFrame_closed hclosed _ _, s.emits_perform _, rfl, hclosed, s.keepsStore_perform _⟩,
    fun hopen => opFrame_open hopen _ _⟩

/-! ### What the panel makes of power, contrast and initialisation (R67, R71, R180) -/

/-- A frame to another address is ignored, whatever its bytes (R180). -/
theorem Panel.receive_foreign (cfg : Config) (p : Panel) {b : Byte} (h : b ≠ addressByte p.address) (rest : List Byte) :
    p.receive cfg (b :: rest) = p := by
  cases rest with
  | nil => rfl
  | cons c payload => exact if_neg h

/-- A power command sets the display flag (R59, R60). -/
theorem Panel.commands_power (cfg : Config) (p : Panel) (on : Bool) :
    p.commands cfg [powerByte on] = { p with displayOn := on } := by
  have honebyte : isOneByteCommand (powerByte on) = true ∧ powerByte on ≠ contrastOpcode := by
    revert on
    decide
  rw [Panel.commands_oneByte cfg p honebyte, Panel.commands]
  cases on <;> rfl

/-- A contrast command sets the contrast to its value byte, which is no command (R61, R71). -/
theorem Panel.commands_contrast (cfg : Config) (p : Panel) (v : Byte) :
    p.commands cfg [contrastOpcode, v] = { p with contrast := v } := by
  have hvalue : takesValue cfg contrastOpcode = true := rfl
  rw [Panel.commands, if_pos hvalue, Panel.commands]
  rfl

/-- The initialisation payload turns the display on (R67, R180, log entry 16). -/
theorem Panel.receive_initBody (cfg : Config) (p : Panel) (pc rf : Byte) :
    p.receive cfg (addressByte p.address :: controlByte .command :: initBody cfg pc rf) = { p with displayOn := true } := by
  simp only [Panel.receive, if_true, readInitBody_initBody, Option.isSome_some]
  rfl

/-- What the panel makes of a frame to some address, when it is known what it makes of the frame to its own. -/
theorem Panel.receive_addressed {cfg : Config} {p q : Panel} {bs : List Byte}
    (h : p.receive cfg (addressByte p.address :: bs) = q) (a : BitVec 7) :
    p.receive cfg (addressByte a :: bs) = if a = p.address then q else p := by
  split
  · next ha => rw [ha, h]
  · next ha => exact p.receive_foreign cfg (mt addressByte_inj.1 ha) bs

/-- A public operation that is one transaction, called idle with `ADDR` set and no frame open (R17, R106). -/
theorem callPublic_opTransaction {s : State} (hs : s.seq = .idle) (hb : s.busOpen = false) {a : BitVec 7}
    (ha : s.addr = some a) (op : Instr) (bs : List Byte) :
    callPublic op (opTransaction bs) s = .next (s.perform (s.frameEvents bs)) := by
  rw [callPublic_idle hs, opTransaction_closed (s := s.setSeq (.running op 0)) hb ha, andThen_next,
    State.perform_called hs, State.setSeq_frameEvents]

/-- Settles O60: each operation puts one frame on the wire, which is what the panel receives. -/
theorem panelObeysPowerAndContrast : Obligations.PanelObeysPowerAndContrast := by
  unfold Obligations.PanelObeysPowerAndContrast
  refine ⟨fun s a ⟨⟨hb, hs⟩, hr, _⟩ ha => ⟨fun on => ?_, fun v => ?_⟩,
    fun s address pc rf ⟨⟨hb, hs⟩, hr, _⟩ haddress hpc hrf => ?_,
    fun cfg p b rest hforeign => p.receive_foreign cfg (by rwa [addressByte_eq]) rest⟩
  · refine ⟨_, callPublic_opTransaction hs hb ha _ _, ?_⟩
    rw [State.perform_panel, State.panelAfter_frameEvents hr ha]
    exact Panel.receive_addressed ((s.panel.receive_commands s.cfg (by simp)).trans (s.panel.commands_power s.cfg on)) a
  · refine ⟨_, callPublic_opTransaction hs hb ha _ _, ?_⟩
    rw [State.perform_panel, State.panelAfter_frameEvents hr ha]
    exact Panel.receive_addressed ((s.panel.receive_commands s.cfg (by simp)).trans (s.panel.commands_contrast s.cfg v)) a
  · refine ⟨_, exec_initialize_closed hs hb haddress hpc hrf, ?_⟩
    rw [State.markAll_panel, State.fbStore_panel, State.perform_panel]
    exact (State.panelAfter_frameEvents (s := s.setAddr (some (BitVec.ofNat 7 address))) hr rfl _).trans
      (Panel.receive_addressed (s.panel.receive_initBody s.cfg _ _) _)

end Sys2Proof.Machine

namespace Sys2Proof.Machine

/-! ### The pin primitives (R81 to R90) -/

/-- A row that answers the state with one event performed is the pin primitive of that event. -/
theorem pinStep_of_perform {i : Instr} {e : Event} (h : ∀ s, exec i s = .next (s.perform [e])) :
    PinStep i e fun p => p.apply e :=
  fun s => ⟨_, h s, rfl, s.emits_perform _, rfl, rfl, s.keepsStore_perform _⟩

/-- Where no wire moves there is no STOP. -/
@[simp] theorem isStop_self (p : Pins) : isStop p p = false := by
  unfold isStop
  cases p.dataWire <;> rfl

/-- Where no wire moves the observer sees nothing: START and STOP need an edge of the data wire, a sample needs one of
the clock wire (R73). -/
@[simp] theorem Rx.see_self (rx : Rx) (p : Pins) : rx.see p p = rx := by
  have hstart : isStart p p = false := by
    unfold isStart
    cases p.dataWire <;> rfl
  have hsample : isSample p p = false := by
    unfold isSample
    cases p.clockWire <;> rfl
  simp [Rx.see, hstart, hsample]

@[simp] theorem Pins.apply_delay (p : Pins) (us : Nat) : p.apply (.delay us) = p := rfl

theorem Rx.after_delay (rx : Rx) (p : Pins) (us : Nat) : rx.after p [.delay us] = rx := by
  simp

/-- A delay completes no frame, so the panel receives none (R89, R180). -/
theorem State.panelAfter_delay (s : State) (us : Nat) : s.panelAfter [.delay us] = s.panel := by
  simp [State.panelAfter, Rx.frames_cons, Rx.completes]

theorem bitCell_getLast? (d : Nat) (b : Bool) : (bitCell d b).getLast? = some .sclLow := rfl

/-- A frame ends as its STOP does, releasing the data line, then the clock line (R55, R56). -/
theorem frameWave_ends_in_release (mode : AckMode) (d : Nat) (a : BitVec 7) (bs : List Byte) :
    ∃ es, frameWave mode d a bs = es ++ [.sdaIn, .sclIn] := by
  have hstop : stopWave d = [.sdaLow, .delay d, .sclHigh, .delay d, .sdaHigh] ++ [.sdaIn, .sclIn] := rfl
  rw [frameWave, hstop, ← List.append_assoc]
  exact ⟨_, rfl⟩

/-- Settles O12: each row performs its one event, and a delay moves no wire. -/
theorem pinPrimitives : Obligations.PinPrimitives := by
  unfold Obligations.PinPrimitives
  refine ⟨pinStep_of_perform fun _ => rfl, pinStep_of_perform fun _ => rfl, pinStep_of_perform fun _ => rfl,
    pinStep_of_perform fun _ => rfl, pinStep_of_perform fun _ => rfl, pinStep_of_perform fun _ => rfl,
    pinStep_of_perform fun _ => rfl, pinStep_of_perform fun _ => rfl, fun _ => pinStep_of_perform fun _ => rfl,
    fun us s t h => ?_, bitCell_getLast?, frameWave_ends_in_release⟩
  rw [exec_precisionDelay, execPrecisionDelay] at h
  cases h
  exact ⟨by rw [State.perform_rx, Rx.after_delay], by rw [State.perform_panel, State.panelAfter_delay]⟩

end Sys2Proof.Machine

namespace Sys2Proof.Machine

/-! ### Edges on the wire of a frame (R107) -/

theorem countEdges_append (q : Pins → Pins → Bool) (p : Pins) (es fs : List Event) :
    countEdges q p (es ++ fs) = countEdges q p es + countEdges q (p.applyAll es) fs := by
  induction es generalizing p with
  | nil => simp [countEdges]
  | cons e es ih => simp only [List.cons_append, countEdges, ih, Pins.applyAll_cons, Nat.add_assoc]

theorem Pins.Clocking.applyAll_startWave (p : Pins) (d : Nat) : (p.applyAll (startWave d)).Clocking := ⟨rfl, rfl⟩

/-- Pins inside a frame, with an observer that has the frame open. -/
theorem Pins.Clocking.inFrame {p : Pins} (h : p.Clocking) : InFrame p { Rx.quiet with active := true } := ⟨h, rfl⟩

theorem Pins.Clocking.applyAll_bitCell {p : Pins} (h : p.Clocking) (d : Nat) (b : Bool) :
    (p.applyAll (bitCell d b)).Clocking := (h.inFrame.through_bitCell d b).1

theorem Pins.Clocking.applyAll_bitCells {p : Pins} (h : p.Clocking) (d : Nat) (bits : List Bool) :
    (p.applyAll (bits.flatMap (bitCell d))).Clocking := (h.inFrame.through_bitCells d bits).1

theorem Pins.Clocking.applyAll_byteWave {p : Pins} (h : p.Clocking) (mode : AckMode) (d : Nat) (v : Byte) :
    (p.applyAll (byteWave mode d v)).Clocking := (h.inFrame.through_byteWave mode d v).1

theorem Pins.Clocking.applyAll_bytesWave {p : Pins} (h : p.Clocking) (mode : AckMode) (d : Nat) (bs : List Byte) :
    (p.applyAll (bytesWave mode d bs)).Clocking := (h.inFrame.through_bytesWave mode d bs).1

/-- Items that each keep the frame's pins and have `n` edges have `n` times as many together. -/
theorem countEdges_flatMap {α : Type} {q : Pins → Pins → Bool} {n : Nat} {f : α → List Event}
    (hkeep : ∀ (p : Pins) (x : α), p.Clocking → (p.applyAll (f x)).Clocking)
    (hcount : ∀ (p : Pins) (x : α), p.Clocking → countEdges q p (f x) = n) {p : Pins} (h : p.Clocking) (xs : List α) :
    countEdges q p (xs.flatMap f) = n * xs.length := by
  induction xs generalizing p with
  | nil => rfl
  | cons x xs ih =>
    rw [List.flatMap_cons, countEdges_append, hcount p x h, ih (hkeep p x h), List.length_cons]
    ring

/-- Inside a frame every bit cell, and the ACK cell of every mode, has `n` edges of the kind `q`. -/
def EdgesPerCell (q : Pins → Pins → Bool) (n : Nat) : Prop :=
  ∀ (p : Pins) (d : Nat), p.Clocking →
    (∀ b, countEdges q p (bitCell d b) = n) ∧ ∀ mode, countEdges q p (ackCell mode d) = n

/-- Within a cell the data wire moves under a low clock only (R51, R52). -/
theorem edgesPerCell_dataMovesUnderClock : EdgesPerCell dataMovesUnderClock 0 := by
  rintro ⟨⟨latch, _⟩, _⟩ d ⟨rfl, rfl⟩
  refine ⟨fun b => ?_, fun mode => ?_⟩
  · cases b <;> cases latch <;> rfl
  · cases mode <;> cases latch <;> rfl

/-- Each cell is one clock pulse (R51, R52). -/
theorem edgesPerCell_isSample : EdgesPerCell isSample 1 := by
  rintro ⟨⟨latch, _⟩, _⟩ d ⟨rfl, rfl⟩
  refine ⟨fun b => ?_, fun mode => ?_⟩
  · cases b <;> cases latch <;> rfl
  · cases mode <;> cases latch <;> rfl

/-- A byte is nine cells (R53). -/
theorem countEdges_byteWave {q : Pins → Pins → Bool} {n : Nat} (hq : EdgesPerCell q n) {p : Pins} (h : p.Clocking)
    (mode : AckMode) (d : Nat) (v : Byte) : countEdges q p (byteWave mode d v) = 9 * n := by
  have hbits : countEdges q p ((bitsMsbFirst v).flatMap (bitCell d)) = n * 8 :=
    countEdges_flatMap (fun _ b hp => hp.applyAll_bitCell d b) (fun p b hp => (hq p d hp).1 b) h (bitsMsbFirst v)
  rw [byteWave, countEdges_append, hbits, (hq _ d (h.applyAll_bitCells d _)).2 mode]
  omega

theorem countEdges_bytesWave {q : Pins → Pins → Bool} {n : Nat} (hq : EdgesPerCell q n) {p : Pins} (h : p.Clocking)
    (mode : AckMode) (d : Nat) (bs : List Byte) : countEdges q p (bytesWave mode d bs) = 9 * n * bs.length :=
  countEdges_flatMap (fun _ v hp => hp.applyAll_byteWave mode d v) (fun _ v hp => countEdges_byteWave hq hp mode d v) h bs

/-- START from released lines: the data wire falls under a high clock, and the clock wire, high already, does not rise (R54). -/
theorem countEdges_startWave {p : Pins} (hd : p.sda.dir = .input) (hc : p.scl.dir = .input) (d : Nat) :
    countEdges dataMovesUnderClock p (startWave d) = 1 ∧ countEdges isSample p (startWave d) = 0 := by
  obtain ⟨⟨_, _⟩, ⟨_, _⟩⟩ := p
  cases hd
  cases hc
  exact ⟨rfl, rfl⟩

/-- STOP: the clock wire rises once, and then the data wire rises under it (R55). -/
theorem countEdges_stopWave {p : Pins} (h : p.Clocking) (d : Nat) :
    countEdges dataMovesUnderClock p (stopWave d) = 1 ∧ countEdges isSample p (stopWave d) = 1 := by
  obtain ⟨⟨latch, _⟩, _⟩ := p
  obtain ⟨rfl, rfl⟩ := h
  cases latch <;> exact ⟨rfl, rfl⟩

/-- The edges of a frame are those of its START, of its `9(k+1)` cells and of its STOP (R56). -/
theorem countEdges_frameWave {q : Pins → Pins → Bool} {n : Nat} (hq : EdgesPerCell q n) (p : Pins) (mode : AckMode)
    (d : Nat) (a : BitVec 7) (bs : List Byte) :
    ∃ p' : Pins, p'.Clocking ∧ countEdges q p (frameWave mode d a bs)
      = countEdges q p (startWave d) + (9 * n * (bs.length + 1) + countEdges q p' (stopWave d)) := by
  have hstart := Pins.Clocking.applyAll_startWave p d
  refine ⟨_, hstart.applyAll_bytesWave mode d (addressByte a :: bs), ?_⟩
  rw [frameWave_eq, countEdges_append, countEdges_append, countEdges_bytesWave hq hstart, List.length_cons]

/-- R107 (i): the data wire moves under a high clock in START and in STOP, and nowhere between. -/
theorem countEdges_dataMovesUnderClock_frameWave {p : Pins} (hd : p.sda.dir = .input) (hc : p.scl.dir = .input)
    (mode : AckMode) (d : Nat) (a : BitVec 7) (bs : List Byte) :
    countEdges dataMovesUnderClock p (frameWave mode d a bs) = 2 := by
  obtain ⟨p', hp', hsplit⟩ := countEdges_frameWave edgesPerCell_dataMovesUnderClock p mode d a bs
  rw [hsplit, (countEdges_startWave hd hc d).1, (countEdges_stopWave hp' d).1]
  omega

/-- R107 (ii): the clock wire rises once in each cell and once in STOP. -/
theorem countEdges_isSample_frameWave {p : Pins} (hd : p.sda.dir = .input) (hc : p.scl.dir = .input)
    (mode : AckMode) (d : Nat) (a : BitVec 7) (bs : List Byte) :
    countEdges isSample p (frameWave mode d a bs) = 9 * (bs.length + 1) + 1 := by
  obtain ⟨p', hp', hsplit⟩ := countEdges_frameWave edgesPerCell_isSample p mode d a bs
  rw [hsplit, (countEdges_startWave hd hc d).2, (countEdges_stopWave hp' d).2]
  omega

/-- Settles O21, by the edges of START, of each cell and of STOP, and by the pins a STOP leaves. -/
theorem wireInvariantsOfAFrame : Obligations.WireInvariantsOfAFrame := by
  unfold Obligations.WireInvariantsOfAFrame
  intro mode d a bs p hd hc
  rw [Pins.applyAll_frameWave]
  exact ⟨countEdges_dataMovesUnderClock_frameWave hd hc mode d a bs, countEdges_isSample_frameWave hd hc mode d a bs,
    rfl, rfl, rfl, rfl⟩

/-! ### The bus transport (R98 to R102, R105, R106) -/

/-- `begin` with no frame open (R98). -/
theorem exec_beginFrame_closed {s : State} (h : s.busOpen = false) (a : BitVec 7) :
    exec (.beginFrame a) s
      = .next ((s.perform (startWave s.delay ++ byteWave s.cfg.ackMode s.delay (addressByte a))).setBusOpen true) := by
  simp [execBeginFrame, opBegin, h]

/-- `writeBytes` in an open frame, the buffer long enough (R99). -/
theorem exec_writeBytes_open {s : State} (h : s.busOpen = true) {buffer : List Byte} {length : Nat}
    (hlen : length ≤ buffer.length) : exec (.writeBytes buffer length) s = .next (s.sendBytes (buffer.take length)) := by
  rw [exec_writeBytes, execWriteBytes, opWriteBytes, if_pos h, if_neg (Nat.not_lt.2 hlen)]

/-- `end` in an open frame (R100). -/
theorem exec_endFrame_open {s : State} (h : s.busOpen = true) :
    exec .endFrame s = .next ((s.perform (stopWave s.delay)).setBusOpen false) := if_pos h

/-- Sending no bytes is doing nothing (R102). -/
@[simp] theorem State.sendBytes_nil (s : State) : s.sendBytes [] = s := s.perform_nil

/-- Sending bytes and then more is sending them all (R105). -/
theorem State.sendBytes_append (s : State) (u v : List Byte) : s.sendBytes (u ++ v) = (s.sendBytes u).sendBytes v := by
  simp only [State.sendBytes, State.bytesEvents, bytesWave_append, State.perform_append, State.perform_cfg,
    State.perform_delay]

/-- A whole buffer written in an open frame (R99). -/
theorem exec_writeBytes_all {s : State} (h : s.busOpen = true) (u : List Byte) :
    exec (.writeBytes u u.length) s = .next (s.sendBytes u) := by
  rw [exec_writeBytes_open h (Nat.le_refl _), List.take_length]

/-- A write of length 0 in an open frame (R102). -/
theorem exec_writeBytes_zero {s : State} (h : s.busOpen = true) (b : List Byte) :
    exec (.writeBytes b 0) s = .next s := by
  rw [exec_writeBytes_open h (Nat.zero_le _), List.take_zero, State.sendBytes_nil]

/-- Settles O30: each write sends its whole buffer, and sending is additive. -/
theorem writesConcatenate : Obligations.WritesConcatenate := by
  unfold Obligations.WritesConcatenate
  intro u v s hopen
  have hopen' : (s.sendBytes u).busOpen = true := hopen
  refine ⟨_, _, exec_writeBytes_all hopen u, exec_writeBytes_all hopen' v, ?_⟩
  rw [exec_writeBytes_all hopen, State.sendBytes_append]

/-- Settles O27: START and a byte inside it leave both lines driven and the clock low. -/
theorem beginOpensAFrame : Obligations.BeginOpensAFrame := by
  unfold Obligations.BeginOpensAFrame
  intro a s
  simp only [← addressByte_eq]
  refine ⟨fun hclosed => ?_, fun hopen => if_pos hopen⟩
  refine ⟨_, exec_beginFrame_closed hclosed a, State.emits_setBusOpen (s.emits_perform _) true, rfl, rfl, ?_,
    State.keepsStore_setBusOpen (s.keepsStore_perform _) true⟩
  rw [State.setBusOpen_pins, State.perform_pins, Pins.applyAll_append]
  exact (Pins.Clocking.applyAll_startWave s.pins s.delay).applyAll_byteWave _ _ _

/-- Settles O29: `end` performs STOP, which leaves the latches high and the lines released. -/
theorem endClosesTheFrame : Obligations.EndClosesTheFrame := by
  unfold Obligations.EndClosesTheFrame
  refine fun s => ⟨fun hopen => ?_, fun hclosed => ?_⟩
  · exact ⟨_, exec_endFrame_open hopen, State.emits_setBusOpen (s.emits_perform _) false, rfl, rfl,
      Pins.applyAll_stopWave s.pins s.delay, State.keepsStore_setBusOpen (s.keepsStore_perform _) false⟩
  · simp [execEndFrame, opEnd, hclosed]

/-- A frame with no byte after the address byte (R56, R102). -/
theorem frameWave_nil (mode : AckMode) (d : Nat) (a : BitVec 7) :
    frameWave mode d a [] = startWave d ++ byteWave mode d (addressByte a) ++ stopWave d := by
  rw [frameWave, bytesWave_nil, List.append_nil]

/-- Settles O31: `begin` opens the frame, so the write between it and `end` does nothing, and the events are those of the frame
with no byte after the address byte. -/
theorem zeroLengthWriteIsNoOperation : Obligations.ZeroLengthWriteIsNoOperation := by
  unfold Obligations.ZeroLengthWriteIsNoOperation
  simp only [← addressByte_eq, ← frameWave_nil]
  refine fun a b s => ⟨fun hopen => exec_writeBytes_zero hopen b, fun hclosed ⟨hd, hc⟩ => ?_⟩
  refine ⟨_, _, _, exec_beginFrame_closed hclosed a, exec_writeBytes_zero rfl b, exec_endFrame_open rfl, ?_,
    Rx.frames_frameWave s.rx hd hc _ _ a []⟩
  simp [frameWave_nil]

/-- Settles O32: `transaction` is the transaction of its operand. -/
theorem transactionIsOneFrame : Obligations.TransactionIsOneFrame := by
  unfold Obligations.TransactionIsOneFrame
  intro bytes
  have htransaction : ∀ s, exec (.transaction bytes) s = opTransaction bytes s := fun _ => rfl
  exact ⟨sendsFrame_of_opTransaction htransaction, needsAddressAndClosedBus_of_opTransaction htransaction⟩

end Sys2Proof.Machine

namespace Sys2Proof.Machine

/-! ### Device commands, each one frame (R117, R120, R121, R123) -/

/-- A frame goes to the address that `ADDR` holds (R56, R106). -/
theorem State.frameEvents_of_addr {s : State} {a : BitVec 7} (ha : s.addr = some a) (bs : List Byte) :
    s.frameEvents bs = frameWave s.cfg.ackMode s.delay a bs := by
  simp only [State.frameEvents, ha]

/-- The bytes of a position inside the panel are sums (R62 to R65). -/
theorem positionBytes_eq {column page : Nat} (hcolumn : column ≤ 127) (hpage : page ≤ 7) :
    positionBytes column page
      = [BitVec.ofNat 8 (0xB0 + page), BitVec.ofNat 8 (column % 16), BitVec.ofNat 8 (0x10 + column / 16)] := by
  have hc : (BitVec.ofNat 7 column).toNat = column := Nat.mod_eq_of_lt (Nat.lt_succ_of_le hcolumn)
  have hp : (BitVec.ofNat 3 page).toNat = page := Nat.mod_eq_of_lt (Nat.lt_succ_of_le hpage)
  have hpageByte := pageByte_eq (BitVec.ofNat 3 page)
  have hlow := colLowByte_eq (BitVec.ofNat 7 column)
  have hhigh := colHighByte_eq (BitVec.ofNat 7 column)
  rw [hp] at hpageByte
  rw [hc] at hlow hhigh
  rw [positionBytes, hpageByte, hlow, hhigh]

/-- `setPosition` inside the panel is a transaction (R117). -/
theorem exec_setPosition_inside {column page : Nat} (hcolumn : column ≤ 127) (hpage : page ≤ 7) (s : State) :
    exec (.setPosition column page) s = opTransaction (controlByte .command :: positionBytes column page) s :=
  if_pos (by omega)

/-- Settles O34: inside the panel `setPosition` is one transaction, and outside it the range check refuses. -/
theorem setPositionSendsThePositionTriplet : Obligations.SetPositionSendsThePositionTriplet := by
  unfold Obligations.SetPositionSendsThePositionTriplet
  refine ⟨fun column page hcolumn hpage => ?_, fun column page s hout => if_neg (by omega)⟩
  rw [← positionBytes_eq hcolumn hpage]
  exact ⟨sendsFrame_of_opTransaction (exec_setPosition_inside hcolumn hpage),
    needsAddressAndClosedBus_of_opTransaction (exec_setPosition_inside hcolumn hpage)⟩

/-- A public operation that is one transaction sends one frame and changes no other state (R106, R120, R121). -/
theorem callPublic_opTransaction_effect {s : State} (hidle : s.Idle) {a : BitVec 7} (ha : s.addr = some a) (op : Instr)
    (bs : List Byte) :
    ∃ t, callPublic op (opTransaction bs) s = .next t ∧ s.Emits t (frameWave s.cfg.ackMode s.delay a bs) ∧ t.Idle
      ∧ t.Released ∧ s.KeepsStore t := by
  obtain ⟨hb, hs⟩ := hidle
  refine ⟨_, callPublic_opTransaction hs hb ha op bs, ?_⟩
  rw [State.frameEvents_of_addr ha]
  exact ⟨s.emits_perform _, ⟨hb, by rw [State.perform_seq, hs, Seq.advance_idle]⟩, s.released_perform_frameWave _ _ _ _,
    s.keepsStore_perform _⟩

/-- Settles O36: each operation is one transaction under a public call. -/
theorem powerAndContrastSendOneFrame : Obligations.PowerAndContrastSendOneFrame := by
  unfold Obligations.PowerAndContrastSendOneFrame
  exact fun s a ha hidle => ⟨fun on => callPublic_opTransaction_effect hidle ha (.setPower on) [0x00#8, powerByte on],
    fun v => callPublic_opTransaction_effect hidle ha (.setContrast v) [0x00#8, contrastOpcode, v]⟩

/-! ### The first operation: `ADDR`, the frame, `FB`, the indicators (R119, R192) -/

/-- A store of one value over all of `FB` (R119, R138). -/
theorem State.fbStore_replicate_fbByte (s : State) (v : Byte) (i : Nat) :
    (s.fbStore 0 (List.replicate fbSize v)).fbByte i = if i < 1024 then v else s.fbByte i := by
  simp only [State.fbStore_fbByte, fbLookup_fbWrite, List.length_replicate, fbSize, Nat.zero_le, true_and, Nat.zero_add,
    Nat.sub_zero]
  split
  · next hi => rw [List.getElem?_replicate, if_pos hi, Option.getD_some]
  · rfl

/-- Marking everything sets every flag in the coarse variant, and makes every shadow entry unknown in the fine one; the other
indicator is kept (R119, R138, C7). -/
theorem State.markAll_marks (s : State) :
    (s.cfg.variant.granularity = .page → (∀ p : Fin 8, s.markAll.dirty[p] = true) ∧ s.markAll.shadow = s.shadow)
      ∧ (s.cfg.variant.granularity = .byte → (∀ i, s.markAll.shadowEntry i = none) ∧ s.markAll.dirty = s.dirty) := by
  refine ⟨fun hg => ?_, fun hg => ?_⟩
  · rw [State.markAll_page hg]
    refine ⟨fun p => ?_, rfl⟩
    have hmarked : 0 ≤ p.val ∧ p.val ≤ 7 := by omega
    rw [State.setDirty_dirty, markRange_get, decide_eq_true hmarked, Bool.or_true]
  · rw [State.markAll_byte hg]
    exact ⟨fun _ => rfl, rfl⟩

/-- Settles O35: the one frame goes to the address just latched, then the clearing and the marking; the operands are checked
before any of it. -/
theorem initializeEstablishesTheState : Obligations.InitializeEstablishesTheState := by
  unfold Obligations.InitializeEstablishesTheState
  refine fun address pc rf s => ⟨fun haddress hpc hrf ⟨hb, hs⟩ => ?_,
    fun hs hwide => callPublic_refused hs fun _ => if_pos hwide⟩
  have hexec := exec_initialize_closed hs hb haddress hpc hrf
  have hframe := emits_of_answers (exec_answers hexec)
  obtain ⟨hpage, hbyte⟩ := State.markAll_marks (((s.setAddr (some (BitVec.ofNat 7 address))).perform
    (expansion (.initializePanel address pc rf) s)).fbStore 0 (List.replicate fbSize 0#8))
  refine ⟨_, hexec, by simp, hframe, fun i hi => ?_, fun i hi => ?_, hpage, hbyte, ⟨by simpa, by simp [hs]⟩, ?_, by simp,
    by simp, by simp, by simp, by simp⟩
  · rw [State.markAll_fbByte, State.fbStore_replicate_fbByte, if_pos hi]
  · rw [State.markAll_fbByte, State.fbStore_replicate_fbByte, if_neg (Nat.not_lt.2 hi)]
    rfl
  · rw [State.Released, State.markAll_pins, State.fbStore_pins]
    exact State.released_perform_frameWave _ _ _ _ _

/-! ### What the observer reads of whole frames (R73, R107) -/

/-- From rest the observer reads these frames of the events, and they lead to rest again. -/
structure ReadsAs (es : List Event) (frames : List (List Byte)) : Prop where
  keepsRest : KeepsRest es
  reads : ∀ p rx, Resting p rx → rx.frames p es = frames

theorem readsAs_frameWave (mode : AckMode) (d : Nat) (a : BitVec 7) (bs : List Byte) :
    ReadsAs (frameWave mode d a bs) [addressByte a :: bs] :=
  ⟨keepsRest_frameWave mode d a bs, fun _ rx ⟨⟨hd, hc⟩, _⟩ => rx.frames_frameWave hd hc mode d a bs⟩

theorem ReadsAs.append {es es' : List Event} {fs fs' : List (List Byte)} (h : ReadsAs es fs) (h' : ReadsAs es' fs') :
    ReadsAs (es ++ es') (fs ++ fs') :=
  ⟨h.keepsRest.append h'.keepsRest, fun p rx hrest => by
    rw [Rx.frames_append, h.reads p rx hrest, h'.reads _ _ (h.keepsRest p rx hrest)]⟩

theorem readsAs_flatMap {α : Type} {f : α → List Event} {g : α → List (List Byte)} (h : ∀ x, ReadsAs (f x) (g x))
    (xs : List α) : ReadsAs (xs.flatMap f) (xs.flatMap g) := by
  induction xs with
  | nil => exact ⟨keepsRest_nil, fun _ _ _ => rfl⟩
  | cons x xs ih => exact (h x).append ih

/-! ### The scenario of R125 -/

/-- After everything is marked every page is dirty, in both granularities (R119, R138, R151). -/
theorem State.markAll_pageDirty (s : State) (p : Fin 8) : s.markAll.pageDirty p = true := by
  obtain ⟨hpage, hbyte⟩ := s.markAll_marks
  cases hg : s.cfg.variant.granularity with
  | page => simp only [State.pageDirty, State.markAll_cfg, hg, (hpage hg).1 p]
  | byte =>
    simp only [State.pageDirty, State.markAll_cfg, hg, State.shadowPageDirty, List.any_eq_true]
    exact ⟨0, by decide, by simp [State.shadowDirty, (hbyte hg).1]⟩

/-- The row of a page of a framebuffer that holds one value (R34). -/
theorem State.pageRow_eq_replicate {s : State} {v : Byte} (h : ∀ i, i < 1024 → s.fbByte i = v) (p : Fin 8) :
    s.pageRow p.val = List.replicate 128 v := by
  refine List.eq_replicate_iff.2 ⟨s.pageRow_length p.val, fun b hb => ?_⟩
  obtain ⟨k, hk, rfl⟩ := List.mem_map.1 hb
  rw [List.mem_range, pageStride] at hk
  exact h _ (by rw [pageStride]; omega)

/-- What the observer reads of a dirty page: its position frame, and the data frame of its row (R150, R151). -/
theorem State.readsAs_pageEvents {s : State} {a : BitVec 7} (ha : s.addr = some a) {p : Fin 8} (hd : s.pageDirty p = true) :
    ReadsAs (s.pageEvents p)
      [[addressByte a, 0x00#8, BitVec.ofNat 8 (0xB0 + p.val), 0x00#8, 0x10#8], addressByte a :: 0x40#8 :: s.pageRow p.val] := by
  rw [State.pageEvents, if_pos hd, State.positionEvents, State.dataEvents, State.frameEvents_of_addr ha,
    State.frameEvents_of_addr ha, positionBytes_eq (by omega) (by omega)]
  exact (readsAs_frameWave _ _ _ _).append (readsAs_frameWave _ _ _ _)

/-- What a flush puts on the wire after a fill of one value: every page, from column 0 (R138, R150, R151). -/
theorem State.readsAs_flushEvents_fill {s : State} {a : BitVec 7} (ha : s.addr = some a) (v : Byte) :
    ReadsAs (s.fbStore 0 (List.replicate fbSize v)).markAll.flushEvents
      (pages.flatMap fun p => [[addressByte a, 0x00#8, BitVec.ofNat 8 (0xB0 + p.val), 0x00#8, 0x10#8],
        addressByte a :: 0x40#8 :: List.replicate 128 v]) := by
  refine readsAs_flatMap (fun p => ?_) pages
  have hvalue : ∀ i, i < 1024 → (s.fbStore 0 (List.replicate fbSize v)).markAll.fbByte i = v := fun i hi => by
    rw [State.markAll_fbByte, State.fbStore_replicate_fbByte, if_pos hi]
  rw [← State.pageRow_eq_replicate hvalue p]
  exact State.readsAs_pageEvents (by simpa using ha) (State.markAll_pageDirty _ p)

/-- The row that is `flush` in this configuration answers the page walk (R150, R151). -/
theorem exec_flushRow_closed (s : State) {t : State} (hs : t.seq = .idle) (hb : t.busOpen = false) {a : BitVec 7}
    (ha : t.addr = some a) : exec s.flushRow t = .next (t.pagesSent pages) := by
  obtain ⟨hpage, hbyte⟩ := exec_flush_closed hs hb ha
  unfold State.flushRow
  split
  · exact hpage
  · exact hbyte

/-- Settles O59: the initialisation frame, nothing for the fill, and the flush of a framebuffer of zero bytes. -/
theorem endToEndScenario : Obligations.EndToEndScenario := by
  unfold Obligations.EndToEndScenario
  rintro s ⟨⟨hb, hs⟩, hrest⟩
  obtain ⟨t, hinit, haddr, hframe, -, -, -, -, ⟨hbt, hst⟩, -, hcfg, -⟩ :=
    (initializeEstablishesTheState 0x3C 0xF1 0x80 s).1 (by decide) (by decide) (by decide) ⟨hb, hs⟩
  have hfill := exec_fill_closed hst haddr 0x00#8
  have hflush := exec_flushRow_closed s (t := (t.fbStore 0 (List.replicate fbSize 0x00#8)).markAll) (by simpa) (by simpa)
    (a := 0x3C#7) (by simpa)
  obtain ⟨htrace, -⟩ := State.emits_trans (hframe.congr (u := (t.fbStore 0 (List.replicate fbSize 0x00#8)).markAll))
    (by simpa) (State.emits_pagesSent (ps := pages) (by decide) _)
  have hreads := (readsAs_frameWave s.cfg.ackMode s.delay 0x3C#7 (0x00#8 :: initBody s.cfg 0xF1#8 0x80#8)).append
    (State.readsAs_flushEvents_fill haddr 0x00#8)
  refine ⟨t, _, _, hinit, hfill, hflush, _, htrace, (hreads.reads _ _ hrest).trans ?_⟩
  rw [initBody_eq]
  rfl

end Sys2Proof.Machine

namespace Sys2Proof.Machine

/-! ### A pixel set is the pixel read (R31, R141) -/

/-- Two pixels of the bitmap are at the same bit of the same byte only if they are the same pixel (R31). -/
theorem eq_of_indexOf_eq_of_bitOf_eq {x y x' y' : Nat} (hx : x < 128) (hx' : x' < 128) (hindex : indexOf x' y' = indexOf x y)
    (hbit : bitOf y' = bitOf y) : (x', y') = (x, y) := by
  simp only [indexOf, pageStride, pageOf, bitOf] at hindex hbit
  rw [Prod.mk.injEq]
  omega

/-- In every flush mode `setPixel` leaves `FB` as painting does (R136, R137, R152). -/
@[simp] theorem State.pixelSet_fbByte (s : State) (x y : Nat) (c : Bool) (i : Nat) :
    (s.pixelSet x y c).fbByte i = (s.paintPixel x y c).fbByte i := by
  rw [State.fbByte, State.fbByte, State.pixelSet_fb]

theorem bitOf_lt (y : Nat) : bitOf y < 8 := Nat.mod_lt y (by decide)

theorem State.pixelSet_pixelBit_self (s : State) (x y : Nat) (c : Bool) : (s.pixelSet x y c).pixelBit x y = c := by
  rw [State.pixelBit, State.pixelSet_fbByte, State.paintPixel_fbByte, if_pos rfl, paint_getLsbD _ _ _ (bitOf_lt y),
    if_pos rfl]

/-- Every other pixel is in another byte, or at another bit of the painted one. -/
theorem State.pixelSet_pixelBit_of_ne (s : State) {x y x' y' : Nat} (hx : x < 128) (hx' : x' < 128)
    (h : (x', y') ≠ (x, y)) (c : Bool) : (s.pixelSet x y c).pixelBit x' y' = s.pixelBit x' y' := by
  rw [State.pixelBit, State.pixelBit, State.pixelSet_fbByte, State.paintPixel_fbByte]
  split
  · next hindex =>
    have hbit : bitOf y' ≠ bitOf y := fun e => h (eq_of_indexOf_eq_of_bitOf_eq hx hx' hindex e)
    rw [paint_getLsbD _ _ _ (bitOf_lt y'), if_neg hbit]
  · rfl

/-- The instance's row of `setPixel` is one of the two. -/
theorem State.setPixelRow_eq (s : State) (x y : Int) (c : Bool) :
    s.setPixelRow x y c = .setPixel x y c ∨ s.setPixelRow x y c = .setPixelByte x y c := by
  unfold State.setPixelRow
  split
  · exact .inl rfl
  · exact .inr rfl

/-- The operands of a row of `setPixel` can be read off it. -/
theorem setPixel_operands {i : Instr} {x y x' y' : Int} {c c' : Bool} (h : i = .setPixel x y c ∨ i = .setPixelByte x y c)
    (h' : i = .setPixel x' y' c' ∨ i = .setPixelByte x' y' c') : x = x' ∧ y = y' ∧ c = c' := by
  rcases h with rfl | rfl <;> simpa using h'

/-- Either row of `setPixel`, inside the bitmap, answers one state only (R136, R137). -/
theorem eq_pixelSet_of_answers {s t : State} {i : Instr} {x y : Nat} {c : Bool}
    (hi : i = .setPixel x y c ∨ i = .setPixelByte x y c) (hx : x < 128) (hy : y < 64) (h : Answers s i t) :
    t = s.pixelSet x y c := by
  cases h with
  | paints _ x' y' c' hi' =>
    obtain ⟨hx', hy', rfl⟩ := setPixel_operands hi hi'
    rw [Int.ofNat_inj.1 hx', Int.ofNat_inj.1 hy']
  | misses _ x' y' c' hout hi' =>
    obtain ⟨rfl, rfl, -⟩ := setPixel_operands hi hi'
    omega
  | performs _ hinternal => rcases hi with rfl | rfl <;> cases hinternal
  | flushes _ hflush => rcases hi with rfl | rfl <;> simp at hflush
  | _ => simp at hi

/-- Settles O41: the answer of the instance's row is `pixelSet`, which sets the one bit. -/
theorem pixelReadsBackWhatWasSet : Obligations.PixelReadsBackWhatWasSet := by
  unfold Obligations.PixelReadsBackWhatWasSet
  intro x y x' y' color s t hx hy hx' _ h
  rw [eq_pixelSet_of_answers (s.setPixelRow_eq x y color) hx hy (exec_answers h)]
  exact ⟨s.pixelSet_pixelBit_self x y color, fun hne => s.pixelSet_pixelBit_of_ne hx hx' hne color⟩

/-! ### `setPixel` in immediate mode (R137, R152) -/

/-- The shadow after the sending step: the byte's entry is the byte, sent or known already; every other is as before (R152). -/
theorem State.pixelSent_shadowEntry (s : State) (x y j : Nat) :
    (s.pixelSent x y).shadowEntry j = if j = indexOf x y then some (s.fbByte j) else s.shadowEntry j := by
  by_cases hj : j = indexOf x y
  · subst hj
    by_cases hd : s.shadowDirty (indexOf x y) = true
    · simp [State.pixelSent, hd, lookup_knownWrite]
    · rw [State.pixelSent, if_neg hd, if_pos rfl]
      simpa [State.shadowDirty] using hd
  · have hout : ¬(indexOf x y ≤ j ∧ j < indexOf x y + 1) := by omega
    rw [if_neg hj]
    unfold State.pixelSent
    split
    · rw [State.setShadow_shadowEntry, lookup_knownWrite, List.length_singleton, if_neg hout]
      rfl
    · rfl

/-- What the sending step sends: nothing when the shadow is the byte, otherwise the two frames, byte by byte (R117, R118,
R152). -/
theorem State.pixelEvents_eq {s : State} {a : BitVec 7} (ha : s.addr = some a) {x y : Nat} (hx : x < 128) (hy : y < 64) :
    s.pixelEvents x y = if s.shadowEntry (indexOf x y) = some (s.fbByte (indexOf x y)) then [] else
      frameWave s.cfg.ackMode s.delay a
          [0x00#8, BitVec.ofNat 8 (0xB0 + y / 8), BitVec.ofNat 8 (x % 16), BitVec.ofNat 8 (0x10 + x / 16)]
        ++ frameWave s.cfg.ackMode s.delay a [0x40#8, s.fbByte (indexOf x y)] := by
  rw [State.pixelEvents, State.positionEvents, State.dataEvents, State.frameEvents_of_addr ha, State.frameEvents_of_addr ha,
    pageOf, positionBytes_eq (by omega) (by omega), State.shadowDirty]
  by_cases h : s.shadowEntry (indexOf x y) = some (s.fbByte (indexOf x y)) <;> simp [h, controlByte]

theorem State.pixelSet_immediate {s : State} (h : s.cfg.variant.flushMode = .immediate) (x y : Nat) (c : Bool) :
    s.pixelSet x y c = ((s.paintPixel x y c).pixelSent x y).setResult (.status .ok) := by
  simp only [State.pixelSet, h]

/-- In immediate mode, inside the bitmap, `setPixel` sends what the sending step does after painting (R152). -/
theorem State.setPixelEvents_inside {s : State} (h : s.cfg.variant.flushMode = .immediate) {x y : Nat} (hx : x < 128)
    (hy : y < 64) (c : Bool) : s.setPixelEvents x y c = (s.paintPixel x y c).pixelEvents x y := by
  have hr : inBitmap (x : Int) (y : Int) = true := (inBitmap_iff _ _).2 (by omega)
  simp [State.setPixelEvents, h, hr]

@[simp] theorem State.paintPixel_shadowEntry (s : State) (x y : Nat) (c : Bool) (j : Nat) :
    (s.paintPixel x y c).shadowEntry j = s.shadowEntry j := by
  rw [State.shadowEntry, State.shadowEntry, State.paintPixel_shadow]

theorem State.pixelSet_shadowEntry {s : State} (h : s.cfg.variant.flushMode = .immediate) (x y : Nat) (c : Bool) (j : Nat) :
    (s.pixelSet x y c).shadowEntry j
      = if j = indexOf x y then some ((s.paintPixel x y c).fbByte j) else s.shadowEntry j := by
  rw [State.pixelSet_immediate h, State.setResult_shadowEntry, State.pixelSent_shadowEntry, State.paintPixel_shadowEntry]

/-- Settles O43: `setPixel` paints, and its sending step finds the painted byte dirty or not. -/
theorem immediateSetPixelSendsTheByte : Obligations.ImmediateSetPixelSendsTheByte := by
  unfold Obligations.ImmediateSetPixelSendsTheByte
  rintro x y color s a hx hy ha ⟨hb, hs⟩ hv i v
  have himmediate : s.cfg.variant.flushMode = .immediate := by rw [hv]; rfl
  have hbyte : s.cfg.variant.granularity = .byte := by rw [hv]; rfl
  have hi : indexOf x y = i := rfl
  have hpainted : (s.paintPixel x y color).fbByte i = v := by
    rw [State.paintPixel_fbByte, hi, if_pos rfl]
    rfl
  have hsent := s.emits_pixelSet hx hy color
  rw [State.setPixelEvents_inside himmediate hx hy, State.pixelEvents_eq (by simpa using ha) hx hy, hi, hpainted,
    State.paintPixel_shadowEntry, State.paintPixel_cfg, State.paintPixel_delay] at hsent
  refine ⟨s.pixelSet x y color, (exec_setPixel_closed hs ha (.inl hb) hx hy color).2, ?_, ?_, fun j hj => ⟨?_, ?_⟩,
    hsent, State.pixelSet_result .., ⟨?_, State.pixelSet_seq hs x y color⟩, State.pixelSet_addr .., ?_,
    State.pixelSet_cfg .., State.pixelSet_delay .., State.pixelSet_requests .., State.pixelSet_draws ..⟩
  · rw [State.pixelSet_fbByte, hpainted]
  · rw [State.pixelSet_shadowEntry himmediate, hi, if_pos rfl, hpainted]
  · rw [State.pixelSet_fbByte, State.paintPixel_fbByte, hi, if_neg hj]
  · rw [State.pixelSet_shadowEntry himmediate, hi, if_neg hj]
  · rw [State.pixelSet_busOpen, hb]
  · rw [State.pixelSet_dirty, State.paintPixel_byte hbyte, State.fbStore_dirty]

/-! ### `fill`, and `loadBlock` in the fine variant (R138 to R140) -/

theorem State.keepsWire_fill (s : State) (v : Byte) : s.KeepsWire (s.fbStore 0 (List.replicate fbSize v)).markAll := by
  simp [State.KeepsWire]

/-- Settles O46: `fill` is a store over all of `FB`, then the marking of everything. -/
theorem fillSetsEveryByteAndMarksAll : Obligations.FillSetsEveryByteAndMarksAll := by
  unfold Obligations.FillSetsEveryByteAndMarksAll
  rintro v s ⟨a, ha⟩ hs
  obtain ⟨hpage, hbyte⟩ := State.markAll_marks (s.fbStore 0 (List.replicate fbSize v))
  refine ⟨_, exec_fill_closed hs ha v, fun i hi => ?_, fun i hi => ?_, hpage, hbyte, State.markAll_result _,
    State.markAll_draws _, s.keepsWire_fill v⟩
  · rw [State.markAll_fbByte, State.fbStore_replicate_fbByte, if_pos hi]
  · rw [State.markAll_fbByte, State.fbStore_replicate_fbByte, if_neg (Nat.not_lt.2 hi)]

/-- With `GRANULARITY = byte` loading writes no flag (R139, R140). -/
theorem State.loadAt_dirty_byte {s : State} (h : s.cfg.variant.granularity = .byte) (b : List Byte) (n eff : Nat) :
    (s.loadAt b n eff).dirty = s.dirty := by
  by_cases h0 : n = 0
  · rw [h0, State.loadAt_zero]
  · rw [State.loadAt_of_ne_zero s h0, State.markPages_byte (s := s.fbStore _ _) h, State.fbStore_dirty]

/-- Settles O48: the offset of a page is accepted as it is, and nothing is marked. -/
theorem loadBlockFineVariantCopies : Obligations.LoadBlockFineVariantCopies := by
  unfold Obligations.LoadBlockFineVariantCopies
  rintro buffer count page s ⟨a, ha⟩ hs hg hfit hlen
  have hoffset : effectiveOffset s.cfg.variant.granularity (128 * page) = some (128 * page) := by
    rw [effectiveOffset_of_accepted (.inr (Nat.mul_mod_right 128 page)), Nat.mul_div_cancel_left page (by decide)]
  refine ⟨s.loadAt buffer count (128 * page), exec_loadBlock_closed hs ha hoffset hfit hlen, fun k hk => ?_,
    fun i hi => ?_, State.loadAt_dirty_byte hg .., State.loadAt_shadow .., State.loadAt_result .., State.loadAt_draws ..,
    s.keepsWire_loadAt buffer count (128 * page)⟩
  · have hin : 128 * page ≤ 128 * page + k ∧ 128 * page + k < 128 * page + count := by omega
    rw [State.loadAt_fbByte s hlen, if_pos hin, Nat.add_sub_cancel_left, List.getElem?_eq_getElem (by omega),
      Option.getD_some]
  · have hout : ¬(128 * page ≤ i ∧ i < 128 * page + count) := by omega
    rw [State.loadAt_fbByte s hlen, if_neg hout]

end Sys2Proof.Machine

namespace Sys2Proof.Machine

/-! ### After the page walk every indicator is clear (R44, R150, R151, R154) -/

/-- A page that is not dirty is passed over (R150, R151). -/
theorem State.pageSent_of_clean {s : State} {p : Fin 8} (h : s.pageDirty p = false) : s.pageSent p = s := by
  rw [State.pageSent, h]
  rfl

/-- Cleaning a page clears its indicator: the flag, or the difference of every byte of it from the shadow (R150, R151). -/
theorem State.cleanPage_pageDirty_self (s : State) (p : Fin 8) : (s.cleanPage p).pageDirty p = false := by
  cases hg : s.cfg.variant.granularity with
  | page => simp [State.cleanPage_page hg, State.pageDirty, hg]
  | byte =>
    have hclean : ∀ c < 128, (s.cleanPage p).shadowDirty (128 * p.val + c) = false := fun c hc => by
      have hin : 128 * p.val ≤ 128 * p.val + c ∧ 128 * p.val + c < 128 * p.val + 128 := by omega
      rw [State.shadowDirty, State.cleanPage_fbByte, State.cleanPage_byte hg, State.setShadow_shadowEntry,
        lookup_knownWrite, pageStride, State.pageRow_length, if_pos hin, Nat.add_sub_cancel_left,
        State.pageRow_get s p.val hc, bne_self_eq_false]
    simpa [State.pageDirty, hg, State.shadowPageDirty, pageStride] using hclean

theorem State.pageSent_pageDirty_self (s : State) (p : Fin 8) : (s.pageSent p).pageDirty p = false := by
  cases hd : s.pageDirty p with
  | false => rwa [State.pageSent_of_clean hd]
  | true =>
    rw [State.pageSent, if_pos hd]
    exact State.cleanPage_pageDirty_self _ p

/-- The walk clears the indicators of the pages it visits and leaves those of the others (R150, R151). -/
theorem State.pagesSent_pageDirty (ps : List (Fin 8)) (s : State) (q : Fin 8) :
    (s.pagesSent ps).pageDirty q = (s.pageDirty q && decide (q ∉ ps)) := by
  induction ps generalizing s with
  | nil => simp
  | cons p ps ih =>
    rw [State.pagesSent_cons, ih]
    by_cases hq : q = p
    · simp [hq, State.pageSent_pageDirty_self]
    · simp [hq, State.pageSent_pageDirty_of_ne s hq]

theorem State.allClean_pagesSent (s : State) : (s.pagesSent pages).AllClean := by
  intro p
  have hvisited : p ∈ pages := by revert p; decide
  rw [State.pagesSent_pageDirty, decide_eq_false (not_not_intro hvisited), Bool.and_false]

/-- With every indicator clear no byte is covered by one (R43, R44). -/
theorem State.AllClean.covered {s : State} (h : s.AllClean) {i : Nat} (hi : i < 1024) : s.covered i = false := by
  have hpage : i / 128 < 8 := Nat.div_lt_of_lt_mul hi
  have hclean := h ⟨i / 128, hpage⟩
  cases hg : s.cfg.variant.granularity with
  | page => simpa [State.covered, State.pageDirty, hg, pageStride, hpage] using hclean
  | byte =>
    simp only [State.pageDirty, hg, State.shadowPageDirty, pageStride, List.any_eq_false, List.mem_range] at hclean
    have hbyte := hclean (i % 128) (Nat.mod_lt i (by decide))
    rw [Nat.div_add_mod] at hbyte
    simpa [State.covered, hg] using hbyte

/-! ### A flush that answers (R150, R151, R154) -/

/-- The row that is `flush` in this configuration is one of the two. -/
theorem State.flushRow_eq (s : State) : s.flushRow = .flush ∨ s.flushRow = .flushByte := by
  unfold State.flushRow
  split
  · exact .inl rfl
  · exact .inr rfl

/-- Either row of `flush` answers the page walk, from an idle and initialised state only (R17, R150, R151, R191). -/
theorem eq_pagesSent_of_answers {s t : State} {i : Instr} (hi : i = .flush ∨ i = .flushByte) (h : Answers s i t) :
    t = s.pagesSent pages ∧ s.seq = .idle ∧ ∃ a, s.addr = some a := by
  cases h with
  | flushes _ _ hs ha => exact ⟨rfl, hs, ha⟩
  | performs _ hinternal => rcases hi with rfl | rfl <;> cases hinternal
  | paints _ _ _ _ hi' | misses _ _ _ _ _ hi' => rcases hi with rfl | rfl <;> simp at hi'
  | _ => simp at hi

/-- With every indicator clear the walk answers the same state, a frame open or not (R154). -/
theorem flushPages_allClean {s : State} (h : s.AllClean) (ps : List (Fin 8)) : flushPages ps s = .next s := by
  induction ps with
  | nil => rfl
  | cons p ps ih =>
    have hpass : flushPage p s = .next s := by
      rw [flushPage, h p]
      rfl
    rw [flushPages, hpass, andThen_next, ih]

/-- So does either row of `flush`, idle and initialised (R154). -/
theorem exec_flush_allClean {s : State} (hclean : s.AllClean) (hs : s.seq = .idle) {a : BitVec 7} (ha : s.addr = some a)
    {i : Instr} (hi : i = .flush ∨ i = .flushByte) : exec i s = .next s := by
  have hcall : ∀ op, callPublic op (requireInitialized (flushPages pages)) s = .next s := fun op =>
    callPublic_closed hs (f := id)
      (by rw [requireInitialized_called ha]; exact flushPages_allClean (s := s.setSeq (.running op 0)) hclean pages) rfl hs
  rcases hi with rfl | rfl <;> exact hcall _

/-- Settles O52: the walk visits every page, and with every indicator clear a flush passes them all over. -/
theorem flushTwiceSendsNothingMore : Obligations.FlushTwiceSendsNothingMore := by
  unfold Obligations.FlushTwiceSendsNothingMore
  intro s t h
  obtain ⟨rfl, hs, a, ha⟩ := eq_pagesSent_of_answers s.flushRow_eq (exec_answers h)
  exact ⟨s.allClean_pagesSent, exec_flush_allClean s.allClean_pagesSent (State.pagesSent_seq pages hs) (by simpa using ha)
    s.flushRow_eq⟩

/-- Settles O58: a flush keeps in step, and after it no indicator covers a byte. -/
theorem flushMakesThePanelMatch : Obligations.FlushMakesThePanelMatch := by
  unfold Obligations.FlushMakesThePanelMatch
  rintro s t ⟨-, hr, -⟩ hsynced haddr h p c hp hc
  obtain ⟨rfl, -⟩ := eq_pagesSent_of_answers s.flushRow_eq (exec_answers h)
  have haddr' : (s.pagesSent pages).addr = some (s.pagesSent pages).panel.address := by
    rw [State.pagesSent_addr, (s.extends_pagesSent pages).panelAddress, haddr]
  have hi : 128 * p + c < 1024 := by omega
  exact inStepMeansSuperset _ (hsynced.pagesSent hr pages) haddr' _ hi (s.allClean_pagesSent.covered hi)

/-! ### What a flush sends and leaves (R150, R151) -/

theorem State.pageDirty_page {s : State} (hg : s.cfg.variant.granularity = .page) (p : Fin 8) :
    s.pageDirty p = s.dirty[p] := by
  simp only [State.pageDirty, hg]

theorem State.pageDirty_byte {s : State} (hg : s.cfg.variant.granularity = .byte) (p : Fin 8) :
    s.pageDirty p
      = (List.range 128).any fun c => s.shadowEntry (128 * p.val + c) != some (s.fbByte (128 * p.val + c)) := by
  simp only [State.pageDirty, hg]
  rfl

/-- What a flush sends for one page, byte by byte (R117, R118, R150). -/
theorem State.pageEvents_eq {s : State} {a : BitVec 7} (ha : s.addr = some a) (p : Fin 8) :
    s.pageEvents p = if s.pageDirty p then
        frameWave s.cfg.ackMode s.delay a [0x00#8, BitVec.ofNat 8 (0xB0 + p.val), 0x00#8, 0x10#8]
          ++ frameWave s.cfg.ackMode s.delay a (0x40#8 :: (List.range 128).map fun c => s.fbByte (128 * p.val + c))
      else [] := by
  rw [State.pageEvents, State.positionEvents, State.dataEvents, State.frameEvents_of_addr ha,
    State.frameEvents_of_addr ha, positionBytes_eq (by decide) (by omega)]
  rfl

@[simp] theorem State.pagesSent_fbByte (s : State) (ps : List (Fin 8)) (i : Nat) :
    (s.pagesSent ps).fbByte i = s.fbByte i := by
  rw [State.fbByte, State.fbByte, State.pagesSent_fb]

/-- What neither performing events nor cleaning a page in this configuration changes, the walk does not change. -/
theorem State.pagesSent_keeps {α : Type} {f : State → α} {s : State} (hperform : ∀ (u : State) es, f (u.perform es) = f u)
    (hclean : ∀ (u : State) p, u.cfg = s.cfg → f (u.cleanPage p) = f u) (ps : List (Fin 8)) : f (s.pagesSent ps) = f s := by
  induction ps generalizing s with
  | nil => rfl
  | cons p ps ih =>
    have hpage : f (s.pageSent p) = f s := by
      unfold State.pageSent
      split
      · rw [hclean _ p (State.perform_cfg ..), hperform]
      · rfl
    rw [State.pagesSent_cons, ih fun u q hu => hclean u q (hu.trans (s.pageSent_cfg p)), hpage]

/-- In the coarse variant a flush leaves the shadow alone (R150). -/
theorem State.pagesSent_shadow {s : State} (hg : s.cfg.variant.granularity = .page) (ps : List (Fin 8)) :
    (s.pagesSent ps).shadow = s.shadow :=
  State.pagesSent_keeps State.perform_shadow
    (fun u p hu => by rw [State.cleanPage_page (by rwa [hu]), State.setDirty_shadow]) ps

/-- In the fine variant a flush leaves the flags alone (R151). -/
theorem State.pagesSent_dirty {s : State} (hg : s.cfg.variant.granularity = .byte) (ps : List (Fin 8)) :
    (s.pagesSent ps).dirty = s.dirty :=
  State.pagesSent_keeps State.perform_dirty
    (fun u p hu => by rw [State.cleanPage_byte (by rwa [hu]), State.setShadow_dirty]) ps

/-- Cleaning a page writes no entry of the shadow beyond `FB` (R20, R151). -/
theorem State.cleanPage_shadowEntry_outside (s : State) (p : Fin 8) {i : Nat} (hi : 1024 ≤ i) :
    (s.cleanPage p).shadowEntry i = s.shadowEntry i := by
  cases hg : s.cfg.variant.granularity with
  | page => rw [State.cleanPage_page hg, State.setDirty_shadowEntry]
  | byte =>
    have hout : ¬(128 * p.val ≤ i ∧ i < 128 * p.val + 128) := by omega
    rw [State.cleanPage_byte hg, State.setShadow_shadowEntry, lookup_knownWrite, pageStride, State.pageRow_length,
      if_neg hout]
    rfl

theorem State.pagesSent_shadowEntry_outside (s : State) (ps : List (Fin 8)) {i : Nat} (hi : 1024 ≤ i) :
    (s.pagesSent ps).shadowEntry i = s.shadowEntry i :=
  State.pagesSent_keeps (f := fun u => u.shadowEntry i) (fun u es => u.perform_shadowEntry es i)
    (fun u p _ => u.cleanPage_shadowEntry_outside p hi) ps

/-- In the fine variant a flush leaves the shadow of every byte at the live byte (R151). -/
theorem State.pagesSent_shadowEntry {s : State} (hg : s.cfg.variant.granularity = .byte) {i : Nat} (hi : i < 1024) :
    (s.pagesSent pages).shadowEntry i = some (s.fbByte i) := by
  have hclean := s.allClean_pagesSent.covered hi
  simpa [State.covered, hg, State.shadowDirty] using hclean

theorem State.idle_pagesSent {s : State} (h : s.Idle) (ps : List (Fin 8)) : (s.pagesSent ps).Idle :=
  ⟨by rw [State.pagesSent_busOpen, h.1], State.pagesSent_seq ps h.2⟩

/-- Settles O50: the walk over every page, the flags being the indicators. -/
theorem flushSendsDirtyPagesInOrder : Obligations.FlushSendsDirtyPagesInOrder := by
  unfold Obligations.FlushSendsDirtyPagesInOrder
  intro s a ha hidle hg
  have hsent : s.Emits (s.pagesSent pages) (pages.flatMap s.pageEvents) := State.emits_pagesSent (by decide) s
  simp only [funext (State.pageEvents_eq ha), State.pageDirty_page hg] at hsent
  refine ⟨_, (exec_flush_closed hidle.2 hidle.1 ha).1, hsent, fun p => ?_, State.pagesSent_fb .., s.pagesSent_fbByte pages,
    State.pagesSent_shadow hg pages, State.idle_pagesSent hidle pages, State.pagesSent_addr .., State.pagesSent_cfg ..,
    State.pagesSent_delay .., State.pagesSent_requests .., State.pagesSent_result .., State.pagesSent_draws ..⟩
  rw [← State.pageDirty_page (by rwa [State.pagesSent_cfg]), s.allClean_pagesSent p]

/-- Settles O51: the walk over every page, a page's indicator being the difference of one of its bytes from the shadow. -/
theorem flushByteSendsPagesWithADirtyByte : Obligations.FlushByteSendsPagesWithADirtyByte := by
  unfold Obligations.FlushByteSendsPagesWithADirtyByte
  intro s a ha hidle hg
  have hsent : s.Emits (s.pagesSent pages) (pages.flatMap s.pageEvents) := State.emits_pagesSent (by decide) s
  simp only [funext (State.pageEvents_eq ha), State.pageDirty_byte hg] at hsent
  exact ⟨_, (exec_flush_closed hidle.2 hidle.1 ha).2, hsent, fun _ => State.pagesSent_shadowEntry hg,
    fun _ => s.pagesSent_shadowEntry_outside pages, State.pagesSent_fb .., s.pagesSent_fbByte pages,
    State.pagesSent_dirty hg pages, State.idle_pagesSent hidle pages, State.pagesSent_addr .., State.pagesSent_cfg ..,
    State.pagesSent_delay .., State.pagesSent_requests .., State.pagesSent_result .., State.pagesSent_draws ..⟩

/-! ### One pixel and its flush (R155) -/

/-- What the observer reads of a dirty page sent by a flush: a position frame and a data frame (R150, R151). -/
def State.pageFrames (s : State) (a : BitVec 7) (p : Fin 8) : List (List Byte) :=
  [[addressByte a, 0x00#8, BitVec.ofNat 8 (0xB0 + p.val), 0x00#8, 0x10#8], addressByte a :: 0x40#8 :: s.pageRow p.val]

/-- What the observer reads of a flush: the frames of each dirty page, in order (R150, R151). -/
theorem State.readsAs_flushEvents {s : State} {a : BitVec 7} (ha : s.addr = some a) :
    ReadsAs s.flushEvents (pages.flatMap fun p => if s.pageDirty p then s.pageFrames a p else []) := by
  refine readsAs_flatMap (fun p => ?_) pages
  cases hd : s.pageDirty p with
  | true => exact State.readsAs_pageEvents ha hd
  | false =>
    rw [State.pageEvents, hd]
    exact ⟨keepsRest_nil, fun _ _ _ => rfl⟩

/-- Of the eight pages, the turn of one alone. -/
theorem flatMap_pages_of_one {α : Type} (f : Fin 8 → List α) (p : Fin 8) :
    (pages.flatMap fun q => if decide (q = p) then f q else []) = f p := by
  fin_cases p <;> simp [pages]

/-- With no page dirty before, the pixel's page alone is after painting (R136). -/
theorem State.AllClean.paintPixel_dirty {s : State} (h : s.AllClean) (hg : s.cfg.variant.granularity = .page) (x y : Nat)
    (c : Bool) (p : Fin 8) : (s.paintPixel x y c).dirty[p] = decide (p.val = y / 8) := by
  rw [State.paintPixel_dirty hg, ← State.pageDirty_page hg, h p]
  split <;> simp [*]

/-- Settles O53: painting in the coarse variant marks the pixel's page, the one page the flush then sends. -/
theorem onePixelCostsOnePage : Obligations.OnePixelCostsOnePage := by
  unfold Obligations.OnePixelCostsOnePage
  rintro x y color s a hx hy ha ⟨⟨hb, hs⟩, hrest⟩ hv hclean
  have hbatched : s.cfg.variant.flushMode = .batched := by rw [hv]; rfl
  have hg : s.cfg.variant.granularity = .page := by rw [hv]; rfl
  have hset := (exec_setPixel_closed hs ha (.inl hb) hx hy color).1
  rw [State.pixelSet_batched hbatched] at hset
  obtain ⟨t, ht⟩ : ∃ t, (s.paintPixel x y color).setResult (.status .ok) = t := ⟨_, rfl⟩
  rw [ht] at hset
  have hdirty : ∀ p : Fin 8, t.dirty[p] = decide (p.val = y / 8) := ht ▸ hclean.paintPixel_dirty hg x y color
  have hone : ∀ p : Fin 8, t.pageDirty p = decide (p = ⟨y / 8, by omega⟩) := fun p => by
    rw [State.pageDirty_page (by simpa [← ht] using hg), hdirty p, decide_eq_decide, Fin.ext_iff]
  have haddr : t.addr = some a := by simpa [← ht] using ha
  have hflush := (exec_flush_closed (s := t) (by simpa [← ht] using hs) (by simpa [← ht] using hb) haddr).1
  have hresting : Resting t.pins t.rx := by simpa [← ht, Resting, State.Released] using hrest
  obtain ⟨hsent, -⟩ := State.emits_pagesSent (ps := pages) (by decide) t
  refine ⟨t, _, hset, hflush, t.allClean_pagesSent, by simp [← ht], hdirty, t.flushEvents, hsent, ?_⟩
  simp only [(State.readsAs_flushEvents haddr).reads _ _ hresting, hone, flatMap_pages_of_one, State.pageFrames,
    addressByte_eq]
  rfl

/-! ### What a flush costs (R157, R202) -/

/-- Both lines are released, said of the pins (R24 (iii)). -/
def Pins.Released (p : Pins) : Prop := p.sda.dir = .input ∧ p.scl.dir = .input

theorem Pins.released_applyAll_frameWave (p : Pins) (mode : AckMode) (d : Nat) (a : BitVec 7) (bs : List Byte) :
    (p.applyAll (frameWave mode d a bs)).Released := by
  rw [Pins.applyAll_frameWave]
  exact ⟨rfl, rfl⟩

/-- How many events a dirty page costs, in each `ACK_SDA_MODE` (R202). -/
def eventsPerPage : AckMode → Nat
  | .release => 6240
  | .driveLow => 6105
  | .holdLast => 5970

/-- From released lines, which they release again, the events cost what `n` dirty pages cost (R157, R202). -/
structure CostsPages (mode : AckMode) (n : Nat) (es : List Event) : Prop where
  released : ∀ p : Pins, p.Released → (p.applyAll es).Released
  frames : ∀ (rx : Rx) (p : Pins), p.Released → (rx.frames p es).length = 2 * n
  delays : (es.filter isDelay).length = 2438 * n
  rises : ∀ p : Pins, p.Released → countEdges isSample p es = 1215 * n + 2 * n
  events : es.length = eventsPerPage mode * n

theorem costsPages_nil (mode : AckMode) : CostsPages mode 0 [] :=
  ⟨fun _ h => h, fun _ _ _ => rfl, rfl, fun _ _ => rfl, rfl⟩

theorem CostsPages.append {mode : AckMode} {m n : Nat} {es fs : List Event} (h : CostsPages mode m es)
    (h' : CostsPages mode n fs) : CostsPages mode (m + n) (es ++ fs) where
  released p hp := by
    rw [Pins.applyAll_append]
    exact h'.released _ (h.released p hp)
  frames rx p hp := by
    rw [Rx.frames_append, List.length_append, h.frames rx p hp, h'.frames _ _ (h.released p hp), Nat.mul_add]
  delays := by rw [List.filter_append, List.length_append, h.delays, h'.delays, Nat.mul_add]
  rises p hp := by
    rw [countEdges_append, h.rises p hp, h'.rises _ (h.released p hp)]
    omega
  events := by rw [List.length_append, h.events, h'.events, Nat.mul_add]

/-- A frame of 4 bytes and one of 129 after their address bytes cost one page (R56, R157, R202). -/
theorem costsPages_frames (mode : AckMode) (d : Nat) (a : BitVec 7) {position row : List Byte} (hposition : position.length = 4)
    (hrow : row.length = 129) : CostsPages mode 1 (frameWave mode d a position ++ frameWave mode d a row) := by
  obtain ⟨hevents, hdelays⟩ := frameEventCounts mode d a position
  obtain ⟨hevents', hdelays'⟩ := frameEventCounts mode d a row
  rw [hposition] at hevents hdelays
  rw [hrow] at hevents' hdelays'
  refine ⟨fun p _ => ?_, fun rx p ⟨hd, hc⟩ => ?_, ?_, fun p ⟨hd, hc⟩ => ?_, ?_⟩
  · rw [Pins.applyAll_append]
    exact Pins.released_applyAll_frameWave _ mode d a row
  · obtain ⟨hd', hc'⟩ := p.released_applyAll_frameWave mode d a position
    rw [Rx.frames_append, rx.frames_frameWave hd hc, Rx.frames_frameWave _ hd' hc']
    rfl
  · rw [List.filter_append, List.length_append, hdelays, hdelays']
  · obtain ⟨hd', hc'⟩ := p.released_applyAll_frameWave mode d a position
    rw [countEdges_append, countEdges_isSample_frameWave hd hc, countEdges_isSample_frameWave hd' hc', hposition, hrow]
  · rw [List.length_append, hevents, hevents']
    cases mode <;> rfl

/-- A page's turn in a flush costs one page when it is dirty, and nothing when it is clean (R150, R151). -/
theorem State.costsPages_pageEvents {s : State} {a : BitVec 7} (ha : s.addr = some a) (p : Fin 8) :
    CostsPages s.cfg.ackMode (if s.pageDirty p then 1 else 0) (s.pageEvents p) := by
  rw [State.pageEvents_eq ha]
  split
  · exact costsPages_frames _ _ _ rfl (by simp)
  · exact costsPages_nil _

theorem State.costsPages_flatMap {s : State} {a : BitVec 7} (ha : s.addr = some a) (ps : List (Fin 8)) :
    CostsPages s.cfg.ackMode (ps.filter s.pageDirty).length (ps.flatMap s.pageEvents) := by
  induction ps with
  | nil => exact costsPages_nil _
  | cons p ps ih =>
    have hcount : ((p :: ps).filter s.pageDirty).length
        = (if s.pageDirty p then 1 else 0) + (ps.filter s.pageDirty).length := by
      cases hd : s.pageDirty p <;> simp [hd, Nat.add_comm]
    rw [hcount]
    exact (State.costsPages_pageEvents ha p).append ih

/-- Settles O54: the flush is the turns of the pages, each of which costs one page or nothing. -/
theorem flushCounts : Obligations.FlushCounts := by
  unfold Obligations.FlushCounts
  rintro s t n hr rfl h
  obtain ⟨rfl, -, a, ha⟩ := eq_pagesSent_of_answers s.flushRow_eq (exec_answers h)
  obtain ⟨htrace, -⟩ := State.emits_pagesSent (ps := pages) (by decide) s
  obtain ⟨-, hframes, hdelays, hrises, hevents⟩ := State.costsPages_flatMap ha pages
  refine ⟨_, htrace, hframes s.rx s.pins hr, hdelays, hrises s.pins hr, ?_⟩
  rw [hevents]
  cases s.cfg.ackMode <;> rfl

/-! ### The sending step by itself (R152, log entry 11) -/

/-- Inside the bitmap, in immediate mode, the row is the sending step (R152). -/
theorem exec_setPixelImmediate_inside {s : State} (hf : s.cfg.variant.flushMode = .immediate) {x y : Nat} (hx : x < 128)
    (hy : y < 64) : exec (.setPixelImmediate x y) s = sendPixelByte x y s := by
  have hr : inBitmap (x : Int) (y : Int) = true := (inBitmap_iff _ _).2 (by omega)
  simp only [exec_setPixelImmediate, execSetPixelImmediate, hr, if_true, sendingStep, hf, Int.toNat_natCast]

theorem sendPixelByte_clean {s : State} {x y : Nat} (h : s.shadowDirty (indexOf x y) = false) :
    sendPixelByte x y s = .next s := by
  rw [sendPixelByte, h]
  rfl

/-- A dirty byte is refused as the position before it is (R98, R123). -/
theorem sendPixelByte_refused {s : State} {x y : Nat} (h : s.shadowDirty (indexOf x y) = true) {r : Refusal}
    (hposition : opSetPosition x (pageOf y) s = .refused r) : sendPixelByte x y s = .refused r := by
  rw [sendPixelByte, if_pos h, hposition, andThen_refused]

theorem State.pixelSent_seq_advance {s : State} {x y : Nat} (h : s.shadowDirty (indexOf x y) = true) :
    (s.pixelSent x y).seq = s.seq.advance (s.pixelEvents x y).length := by
  rw [State.pixelSent, if_pos h, State.setShadow_seq, State.perform_seq]

@[simp] theorem State.pixelSent_fbByte (s : State) (x y i : Nat) : (s.pixelSent x y).fbByte i = s.fbByte i := by
  rw [State.fbByte, State.fbByte, State.pixelSent_fb]

/-- Settles O44: the row is the sending step where `setPixel` has one, and the step begins with a position. -/
theorem sendingStepSendsADirtyByte : Obligations.SendingStepSendsADirtyByte := by
  unfold Obligations.SendingStepSendsADirtyByte
  refine ⟨?_, fun x y s hnone => exec_setPixelImmediate_passes (hnone.imp_right fun hout => ?_)⟩
  · intro x y s hx hy hv i
    have himmediate : s.cfg.variant.flushMode = .immediate := by rw [hv]; rfl
    have hi : indexOf x y = i := rfl
    rw [exec_setPixelImmediate_inside himmediate hx hy]
    refine ⟨fun hclean => sendPixelByte_clean (by simp [State.shadowDirty, hi, hclean]), fun hdiffers => ?_⟩
    have hdirty : s.shadowDirty (indexOf x y) = true := by simpa [State.shadowDirty, hi] using hdiffers
    obtain ⟨hunset, hopen⟩ := (setPositionSendsThePositionTriplet.1 x (pageOf y) (by omega) (by rw [pageOf]; omega)).2 s
    refine ⟨fun a ha hb => ?_, fun h => sendPixelByte_refused hdirty (hunset h),
      fun h h' => sendPixelByte_refused hdirty (hopen h h')⟩
    intro es
    have hes : s.pixelEvents x y = es := by rw [State.pixelEvents_eq ha hx hy, hi, if_neg hdiffers]
    refine ⟨s.pixelSent x y, sendPixelByte_sent hb ha hx hy, hes ▸ s.emits_pixelSent x y,
      hes ▸ State.pixelSent_seq_advance hdirty, ?_, fun j hj => ?_, s.pixelSent_fbByte x y, ?_, State.pixelSent_addr ..,
      State.pixelSent_dirty .., State.pixelSent_cfg .., State.pixelSent_delay .., State.pixelSent_requests ..,
      State.pixelSent_result .., State.pixelSent_draws ..⟩
    · rw [State.pixelSent_shadowEntry, hi, if_pos rfl]
    · rw [State.pixelSent_shadowEntry, hi, if_neg hj]
    · rw [State.pixelSent_busOpen, hb]
  · rw [← Bool.not_eq_true, inBitmap_iff]
    omega

end Sys2Proof.Machine

namespace Sys2Proof.Machine

/-! ### What runs under a call does not depend on the row that was called (R17, log entry 10) -/

/-- The outcome with `SEQ` back at idle, as a public call leaves it (R17). -/
def withSeqIdle (o : Out) : Out := andThen o fun t => .next (t.setSeq .idle)

/-- The body decides nothing by `SEQ`: started at any `SEQ` it has the same outcome, but for `SEQ` itself. -/
def BlindToSeq (body : State → Out) : Prop := ∀ s q, withSeqIdle (body (s.setSeq q)) = withSeqIdle (body s)

/-- Under a call only `SEQ` names the row, so a blind body has one outcome under every name. -/
theorem BlindToSeq.callPublic_congr {body : State → Out} (h : BlindToSeq body) (op op' : Instr) (s : State) :
    callPublic op body s = callPublic op' body s := by
  cases hs : s.seq with
  | running => rw [callPublic_running hs, callPublic_running hs]
  | idle =>
    rw [callPublic_idle hs, callPublic_idle hs]
    exact (h s _).trans (h s _).symm

/-! #### Blindness along the control of a body -/

theorem blindToSeq_next {f : State → State} (h : ∀ s q, (f (s.setSeq q)).setSeq .idle = (f s).setSeq .idle) :
    BlindToSeq fun s => .next (f s) := fun s q => congrArg Host.Outcome.next (h s q)

/-- A body may read whatever of the state is not `SEQ`. -/
theorem blindToSeq_read {α : Type} {r : State → α} (hr : ∀ s q, r (s.setSeq q) = r s) {f : α → State → Out}
    (hf : ∀ a, BlindToSeq (f a)) : BlindToSeq fun s => f (r s) s := fun s q => by
  simp only [hr, hf (r s) s q]

theorem BlindToSeq.ite {c : State → Bool} (hc : ∀ s q, c (s.setSeq q) = c s) {f g : State → Out} (hf : BlindToSeq f)
    (hg : BlindToSeq g) : BlindToSeq fun s => if c s then f s else g s :=
  blindToSeq_read (f := fun b s => if b then f s else g s) hc fun
    | true => hf
    | false => hg

/-- Before a blind continuation `SEQ` may already be back at idle. -/
theorem BlindToSeq.withSeqIdle_andThen {g : State → Out} (hg : BlindToSeq g) (o : Out) :
    withSeqIdle (andThen o g) = withSeqIdle (andThen (withSeqIdle o) g) := by
  cases o with
  | next t => exact (hg t .idle).symm
  | fault | refused => rfl

theorem BlindToSeq.andThen {f g : State → Out} (hf : BlindToSeq f) (hg : BlindToSeq g) :
    BlindToSeq fun s => Machine.andThen (f s) g := fun s q => by
  rw [hg.withSeqIdle_andThen, hf s q, ← hg.withSeqIdle_andThen]

theorem BlindToSeq.requireInitialized {body : State → Out} (h : BlindToSeq body) :
    BlindToSeq (requireInitialized body) := fun s q => by
  cases ha : s.addr with
  | none => rw [requireInitialized_unset ha, requireInitialized_unset (s := s.setSeq q) ha]
  | some a => rw [requireInitialized_set ha, requireInitialized_called ha, h]

/-! #### Blindness of what sends (R106, R117, R118) -/

/-- A transaction decides by `ADDR` and `BUS_OPEN` alone, and its primitives only advance `SEQ`. -/
theorem blindToSeq_opTransaction (bs : List Byte) : BlindToSeq (opTransaction bs) := fun s q => by
  cases ha : s.addr with
  | none => rw [opTransaction_unset ha, opTransaction_unset (s := s.setSeq q) ha]
  | some a =>
    cases hb : s.busOpen with
    | true => simp only [opTransaction, State.setSeq_addr, ha, opFrame_open hb, opFrame_open (s := s.setSeq q) hb]
    | false =>
      rw [opTransaction_closed hb ha, opTransaction_closed (s := s.setSeq q) hb ha]
      rfl

theorem blindToSeq_opSetPosition (column page : Int) : BlindToSeq (opSetPosition column page) := fun s q => by
  unfold opSetPosition
  split
  · exact blindToSeq_opTransaction _ s q
  · rfl

theorem blindToSeq_opWriteDataBlock (buffer : List Byte) (length : Nat) :
    BlindToSeq (opWriteDataBlock buffer length) := fun s q => by
  unfold opWriteDataBlock
  split
  · rfl
  · exact blindToSeq_opTransaction _ s q

/-! #### Blindness of the page walk (R150, R151) -/

theorem blindToSeq_flushPage (p : Fin 8) : BlindToSeq (flushPage p) := by
  have hclean : BlindToSeq fun u => .next (u.cleanPage p) :=
    blindToSeq_next fun u q => by rw [State.cleanPage_setSeq, State.setSeq_setSeq]
  have hrow : BlindToSeq fun t => opWriteDataBlock (t.pageRow p.val) pageStride t :=
    blindToSeq_read (f := fun row => opWriteDataBlock row pageStride) (fun t q => t.setSeq_pageRow q p)
      fun row => blindToSeq_opWriteDataBlock row pageStride
  exact .ite (fun s q => s.setSeq_pageDirty q p) ((blindToSeq_opSetPosition 0 p.val).andThen (hrow.andThen hclean))
    (blindToSeq_next fun _ _ => rfl)

theorem blindToSeq_flushPages (ps : List (Fin 8)) : BlindToSeq (flushPages ps) := by
  induction ps with
  | nil => exact blindToSeq_next fun _ _ => rfl
  | cons p ps ih => exact (blindToSeq_flushPage p).andThen ih

/-! #### Blindness of `setPixel` (R136, R137, R152) -/

theorem blindToSeq_sendPixelByte (x y : Nat) : BlindToSeq (sendPixelByte x y) := by
  have hshadow : BlindToSeq fun u =>
      .next (u.setShadow (knownWrite u.shadow (indexOf x y) [u.fbByte (indexOf x y)])) :=
    blindToSeq_next fun _ _ => rfl
  have hdata : BlindToSeq fun t => opWriteDataBlock [t.fbByte (indexOf x y)] 1 t :=
    blindToSeq_read (f := fun b => opWriteDataBlock [b] 1) (fun t q => t.setSeq_fbByte q (indexOf x y))
      fun b => blindToSeq_opWriteDataBlock [b] 1
  exact .ite (fun s q => s.setSeq_shadowDirty q (indexOf x y))
    ((blindToSeq_opSetPosition x (pageOf y)).andThen (hdata.andThen hshadow)) (blindToSeq_next fun _ _ => rfl)

theorem blindToSeq_sendingStep (x y : Nat) : BlindToSeq (sendingStep x y) := fun s q => by
  simp only [sendingStep, State.setSeq_cfg]
  split
  · rfl
  · exact blindToSeq_sendPixelByte x y s q

theorem blindToSeq_setPixelBody (x y : Int) (color : Bool) : BlindToSeq (setPixelBody x y color) := by
  have hpaint : BlindToSeq fun s => .next (s.paintPixel x.toNat y.toNat color) :=
    blindToSeq_next fun s q => by rw [State.paintPixel_setSeq, State.setSeq_setSeq]
  have hstatus : ∀ st, BlindToSeq (returnStatus st) := fun _ => blindToSeq_next fun _ _ => rfl
  exact .ite (c := fun _ => inBitmap x y) (fun _ _ => rfl)
    (hpaint.andThen ((blindToSeq_sendingStep x.toNat y.toNat).andThen (hstatus .ok))) (hstatus .outOfRange)

/-- Settles O45: the two rows call one body, which is blind to `SEQ`, the only place where the row's name stands. -/
theorem rowsOfOneOperationAgree : Obligations.RowsOfOneOperationAgree := by
  unfold Obligations.RowsOfOneOperationAgree
  exact fun s =>
    ⟨fun x y color => (blindToSeq_setPixelBody x y color).requireInitialized.callPublic_congr _ _ s,
      (blindToSeq_flushPages pages).requireInitialized.callPublic_congr _ _ s⟩

end Sys2Proof.Machine
